-- ==== Sys2Proof/Word.lean ====
section
/-! DEFINITION. The word types of the KSUID core: bytes, 64-bit words, the timestamp word, the lane
buffers and the U128 pair, with the plainest arithmetic of the pair. -/

namespace Sys2Proof

/-- `BUFLEN`, the number of lanes of `cmd.data` and of `rsp.rdata` (00_scope.md R8, D6). -/
abbrev BUFLEN : Nat := 32

/-- An 8-bit unsigned element of a lane buffer (00_scope.md R7, 20_memory.md R36). -/
abbrev Byte := BitVec 8

/-- A 64-bit unsigned word, half of a U128 (00_scope.md R7). -/
abbrev Word64 := BitVec 64

/-- A 32-bit unsigned timestamp (00_scope.md R7). -/
abbrev Timestamp := BitVec 32

/-- A lane buffer: `BUFLEN` lanes of 8 bits, lane 0 first (20_memory.md R36). -/
abbrev Lanes := Vector Byte BUFLEN

/-- A U128 value: the pair `(high, low)` of 64-bit words (40_u128.md R70). -/
structure U128 where
  hi : Word64
  lo : Word64
  deriving DecidableEq, Repr, Inhabited

/-- `val(x) = x.hi * 2^64 + x.lo` (40_u128.md R70). -/
def U128.val (x : U128) : Nat := x.hi.toNat * 2 ^ 64 + x.lo.toNat

/-- `U128_ZERO = (0, 0)` (40_u128.md R71). -/
def U128.zero : U128 := ⟨0#64, 0#64⟩

/-- `U128_ONE = (0, 1)` (40_u128.md R71). -/
def U128.one : U128 := ⟨0#64, 1#64⟩

/-- `MAX_U128`, both words all ones (40_u128.md R71). -/
def U128.max : U128 := ⟨0xFFFFFFFFFFFFFFFF#64, 0xFFFFFFFFFFFFFFFF#64⟩

/-- The lane buffer whose every lane is zero (10_state.md R20). -/
def Lanes.zero : Lanes := Vector.replicate BUFLEN 0#8

end Sys2Proof
end

