-- ==== Sys2Proof/Records.lean ====
section
/-! DEFINITION. The records of the KSUID core: the status and comparison results, the command record,
the response record, the B62 unit's scratch and the input ports of one cycle. -/

namespace Sys2Proof

/-- The status of a response (60_exceptions.md R135). Codes 6 to 15 are never produced (U2), so the
type has the six values that are. -/
inductive Status where
  /-- The command completed; the result fields are valid. -/
  | ok
  /-- A length does not match the width required, or exceeds `BUFLEN`. -/
  | invalidLength
  /-- A lane that must hold a base-62 character does not. -/
  | invalidCharacter
  /-- A byte sequence's value does not fit the requested number of characters. -/
  | encodingOverflow
  /-- A string's value does not fit the requested number of bytes. -/
  | decodingOverflow
  /-- `cmd.op` is not one of the fifteen opcodes. -/
  | illegalCommand
  deriving DecidableEq, Repr, Inhabited

/-- The result of a three-way comparison (40_u128.md R78). The code `0b11` is never produced (U1), so
the type has three values. -/
inductive Comparison where
  | equal
  | less
  | greater
  deriving DecidableEq, Repr, Inhabited

/-- A command: the values of the `cmd_*` data ports in one cycle (10_state.md R17). -/
structure Command where
  op   : BitVec 8
  a    : U128
  b    : U128
  ts   : Timestamp
  len  : BitVec 6
  wout : BitVec 6
  data : Lanes
  deriving DecidableEq, Repr, Inhabited

/-- A response: what the core offers for one command (10_state.md R18). -/
structure Response where
  status : Status
  cmp    : Comparison
  r      : U128
  rts    : Timestamp
  rlen   : BitVec 6
  rdata  : Lanes
  deriving DecidableEq, Repr, Inhabited

/-- The hidden storage of the B62 unit (10_state.md R30): the digits of the number being divided, the
most significant first, and the position the next digit is written before. No rule reads it across
commands. -/
structure Scratch where
  dividend : List Byte
  pos      : BitVec 6
  deriving DecidableEq, Repr, Inhabited

/-- The all-zero command record. -/
def Command.zero : Command := ⟨0#8, .zero, .zero, 0#32, 0#6, 0#6, .zero⟩

/-- The all-zero response record every response is built from (10_state.md R20); status code 0 is `OK`
and comparison code 0 is "equal". -/
def Response.zero : Response := ⟨.ok, .equal, .zero, 0#32, 0#6, .zero⟩

/-- The input ports in one cycle of `clk` (10_state.md R16), with the one thing about the core that the
spec leaves to chance: whether its computation has finished by that cycle. -/
structure Cycle where
  /-- `rst`: synchronous reset, active high (70_reset_and_hazards.md R155). -/
  rst      : Bool
  /-- `cmd_valid`: the host offers a command this cycle. -/
  cmdValid : Bool
  /-- The `cmd_*` data ports. -/
  cmd      : Command
  /-- `rsp_ready`: the host takes the response this cycle. -/
  rspReady : Bool
  /-- Not a port. Whether a command in BUSY has its response by this cycle: the latency, which the
  spec leaves unspecified (70_reset_and_hazards.md R166, U5). DESIGN CHOICE, log 2. -/
  settled  : Bool
  deriving DecidableEq, Repr, Inhabited

/-- A cycle in which the host does nothing: no reset, no command offered, no response taken. A command in
BUSY completes in it. DESIGN CHOICE, logs 1 and 2. -/
def Cycle.quiet : Cycle := ⟨false, false, .zero, false, true⟩

end Sys2Proof
end

