-- ==== Sys2Proof/Syntax.lean ====
section
/-! DEFINITION. The fifteen commands of the KSUID core (30_encoding.md R56) as one inductive. Each
constructor holds the fields its command reads (R55) and no other: a field a command does not read has
no effect (10_state.md R26). Lengths are counts, so they are `Nat`; that they fit the six bits of their
fields, and that the lanes at or above the length are zero, is checked in WellFormed. -/

namespace Sys2Proof

/-- The operation codes by name (30_encoding.md R56). -/
inductive Opcode where
  | fromBytes | toBytes | add | sub | inc | dec | cmp
  | b62Enc | b62Dec
  | kCat | kSplit | kGen | kParse | kNext | kPrev
  deriving DecidableEq, Repr

/-- The fields of a command that are operands (10_state.md R17). -/
inductive Operand where
  | a | b | ts | len | wout | data
  deriving DecidableEq, Repr

/-- The fields of a response that are results (10_state.md R18). -/
inductive ResultField where
  | cmp | r | rts | rlen | rdata
  deriving DecidableEq, Repr

/-- The commands, one constructor for each row of spec/opcode_table.json, in the table's order. -/
inductive Instr where
  /-- FROMBYTES (40_u128.md R80). -/
  | fromBytes (len : Nat) (data : Lanes)
  /-- TOBYTES (40_u128.md R81). -/
  | toBytes (a : U128)
  /-- ADD (40_u128.md R82). -/
  | add (a b : U128)
  /-- SUB (40_u128.md R83). -/
  | sub (a b : U128)
  /-- INC (40_u128.md R84). -/
  | inc (a : U128)
  /-- DEC (40_u128.md R85). -/
  | dec (a : U128)
  /-- CMP (40_u128.md R86). -/
  | cmp (a b : U128)
  /-- B62ENC (41_base62.md R101). -/
  | b62Enc (len wout : Nat) (data : Lanes)
  /-- B62DEC (41_base62.md R102). -/
  | b62Dec (len wout : Nat) (data : Lanes)
  /-- KCAT (42_ksuid.md R120). -/
  | kCat (ts : Timestamp) (a : U128)
  /-- KSPLIT (42_ksuid.md R121). -/
  | kSplit (len : Nat) (data : Lanes)
  /-- KGEN (42_ksuid.md R122). -/
  | kGen (ts : Timestamp) (a : U128)
  /-- KPARSE (42_ksuid.md R123). -/
  | kParse (len : Nat) (data : Lanes)
  /-- KNEXT (42_ksuid.md R124). -/
  | kNext (len : Nat) (data : Lanes)
  /-- KPREV (42_ksuid.md R125). -/
  | kPrev (len : Nat) (data : Lanes)
  deriving DecidableEq, Repr

/-- The operation an instruction belongs to. -/
def Instr.opcode : Instr → Opcode
  | .fromBytes _ _ => .fromBytes
  | .toBytes _ => .toBytes
  | .add _ _ => .add
  | .sub _ _ => .sub
  | .inc _ => .inc
  | .dec _ => .dec
  | .cmp _ _ => .cmp
  | .b62Enc _ _ _ => .b62Enc
  | .b62Dec _ _ _ => .b62Dec
  | .kCat _ _ => .kCat
  | .kSplit _ _ => .kSplit
  | .kGen _ _ => .kGen
  | .kParse _ _ => .kParse
  | .kNext _ _ => .kNext
  | .kPrev _ _ => .kPrev

end Sys2Proof
end

