-- ==== Sys2Proof/WellFormed.lean ====
section
/-! DEFINITION. Which instructions a command word can hold: every count fits its six-bit field
(10_state.md R17), and the lanes that are no part of the input sequence are zero (20_memory.md R37,
30_encoding.md R61). Every other operand fits its field by its type. -/

namespace Sys2Proof

/-- A count fits the six bits of `cmd.len` or `cmd.wout`: 0 to 63 (10_state.md R17). -/
def fitsSixBits (n : Nat) : Bool := decide (n < 64)

/-- Every lane at or above `len` is zero (30_encoding.md R61). -/
def zeroFrom (len : Nat) (data : Lanes) : Bool := (data.toList.drop len).all fun x => x == 0#8

/-- A count and the lanes it counts. -/
def wellFormedInput (len : Nat) (data : Lanes) : Bool := fitsSixBits len && zeroFrom len data

/-- An instruction some command word decodes to. -/
def wellFormed : Instr → Bool
  | .fromBytes len data => wellFormedInput len data
  | .toBytes _ => true
  | .add _ _ => true
  | .sub _ _ => true
  | .inc _ => true
  | .dec _ => true
  | .cmp _ _ => true
  | .b62Enc len wout data => wellFormedInput len data && fitsSixBits wout
  | .b62Dec len wout data => wellFormedInput len data && fitsSixBits wout
  | .kCat _ _ => true
  | .kSplit len data => wellFormedInput len data
  | .kGen _ _ => true
  | .kParse len data => wellFormedInput len data
  | .kNext len data => wellFormedInput len data
  | .kPrev len data => wellFormedInput len data

end Sys2Proof
end

