-- ==== Sys2Proof/Decode.lean ====
section
/-! DEFINITION. The command word `CW` (30_encoding.md R50), the response word `RW` (R51), the opcode map
(R56), the decoder, which is total and reads `cmd.op` alone (R53), and after it the encoder. -/

namespace Sys2Proof

/-! ## Lanes as part of a word -/

/-- The lanes that hold a sequence from lane 0 on, zero in every lane above it (20_memory.md R36, R37).
Elements past the last lane are dropped. -/
def lanesOfList (l : List Byte) : Lanes :=
  ⟨((l ++ List.replicate BUFLEN 0#8).take BUFLEN).toArray, by simp⟩

/-- The lanes below `len` as they are, zero in every lane at or above it (20_memory.md R37,
30_encoding.md R61). -/
def keepLanes (len : Nat) (data : Lanes) : Lanes := lanesOfList (data.toList.take len)

/-- The command with every lane at or above `len`, which no command reads, zero (20_memory.md R37,
30_encoding.md R61). -/
def Command.trimmed (c : Command) : Command := { c with data := keepLanes c.len.toNat c.data }

/-- Bits `[start + len - 1 : start]` of a number (00_scope.md R10). -/
def bitField (w start len : Nat) : BitVec len := BitVec.ofNat len (w >>> start)

/-- The lanes in the low 256 bits of a number: lane `i` is bits `[255-8i : 248-8i]`
(30_encoding.md R50). -/
def lanesOfBits (w : Nat) : Lanes :=
  lanesOfList ((List.range BUFLEN).map fun i => bitField w (248 - 8 * i) 8)

/-- The `data` part of a word: the lanes in order, lane 0 the most significant byte (30_encoding.md R50). -/
def bitsOfLanes (v : Lanes) : BitVec 256 :=
  BitVec.ofNat 256 (v.toList.foldl (fun n x => n * 256 + x.toNat) 0)

/-! ## The command word -/

/-- The command record whose command word is the low 564 bits of a number (30_encoding.md R50). Bits
above them are no part of the word and are not read. -/
def commandOfBits (w : Nat) : Command where
  op   := bitField w 556 8
  a    := ⟨bitField w 492 64, bitField w 428 64⟩
  b    := ⟨bitField w 364 64, bitField w 300 64⟩
  ts   := bitField w 268 32
  len  := bitField w 262 6
  wout := bitField w 256 6
  data := lanesOfBits w

/-- The command record a command word is the image of (30_encoding.md R50). -/
def commandOfWord (w : BitVec 564) : Command := commandOfBits w.toNat

/-- The command word of a command record (30_encoding.md R50): `op`, `a`, `b`, `ts`, `len`, `wout`,
`data` from the most significant bit down. -/
def wordOfCommand (c : Command) : BitVec 564 :=
  c.op ++ (c.a.hi ++ (c.a.lo ++ (c.b.hi ++ (c.b.lo ++ (c.ts ++ (c.len ++ (c.wout ++ bitsOfLanes c.data)))))))

/-! ## The response word -/

/-- The four-bit code of a status (60_exceptions.md R135). -/
def statusCode : Status → BitVec 4
  | .ok => 0#4
  | .invalidLength => 1#4
  | .invalidCharacter => 2#4
  | .encodingOverflow => 3#4
  | .decodingOverflow => 4#4
  | .illegalCommand => 5#4

/-- The two-bit code of a comparison: bit 0 is "less", bit 1 is "greater" (40_u128.md R79). -/
def comparisonCode : Comparison → BitVec 2
  | .equal => 0b00#2
  | .less => 0b01#2
  | .greater => 0b10#2

/-- The response word of a response record (30_encoding.md R51): `status`, `cmp`, `r`, `rts`, `rlen`,
`rdata` from the most significant bit down. -/
def wordOfResponse (r : Response) : BitVec 428 :=
  statusCode r.status ++ (comparisonCode r.cmp ++ (r.r.hi ++ (r.r.lo ++ (r.rts ++ (r.rlen ++ bitsOfLanes r.rdata)))))

/-! ## The opcode map -/

/-- The value of `op` for each command (30_encoding.md R56). -/
def opcodeValue : Opcode → BitVec 8
  | .fromBytes => 0x10#8
  | .toBytes => 0x11#8
  | .add => 0x12#8
  | .sub => 0x13#8
  | .inc => 0x14#8
  | .dec => 0x15#8
  | .cmp => 0x16#8
  | .b62Enc => 0x20#8
  | .b62Dec => 0x21#8
  | .kCat => 0x30#8
  | .kSplit => 0x31#8
  | .kGen => 0x32#8
  | .kParse => 0x33#8
  | .kNext => 0x34#8
  | .kPrev => 0x35#8

/-- The fifteen commands (30_encoding.md R56). -/
def allOpcodes : List Opcode :=
  [.fromBytes, .toBytes, .add, .sub, .inc, .dec, .cmp, .b62Enc, .b62Dec,
   .kCat, .kSplit, .kGen, .kParse, .kNext, .kPrev]

/-- The command an `op` value selects, none for the 241 illegal values (30_encoding.md R53, R57). -/
def opcodeOf (op : BitVec 8) : Option Opcode :=
  allOpcodes.find? fun o => opcodeValue o == op

/-! ## The decoder -/

/-- Why the decoder rejects a command. -/
inductive Reject where
  /-- `op` is not in the opcode map (30_encoding.md R57). The core answers it with `IllegalCommand`
  (60_exceptions.md R137). -/
  | illegalCommand (op : BitVec 8)
  deriving DecidableEq, Repr

/-- The instruction a command of a known operation is: the fields that operation reads
(30_encoding.md R52, R55). -/
def instrOf (o : Opcode) (c : Command) : Instr :=
  match o with
  | .fromBytes => .fromBytes c.len.toNat c.data
  | .toBytes => .toBytes c.a
  | .add => .add c.a c.b
  | .sub => .sub c.a c.b
  | .inc => .inc c.a
  | .dec => .dec c.a
  | .cmp => .cmp c.a c.b
  | .b62Enc => .b62Enc c.len.toNat c.wout.toNat c.data
  | .b62Dec => .b62Dec c.len.toNat c.wout.toNat c.data
  | .kCat => .kCat c.ts c.a
  | .kSplit => .kSplit c.len.toNat c.data
  | .kGen => .kGen c.ts c.a
  | .kParse => .kParse c.len.toNat c.data
  | .kNext => .kNext c.len.toNat c.data
  | .kPrev => .kPrev c.len.toNat c.data

/-- Decoding, total, by `op` alone (30_encoding.md R53). Lanes that are no part of the input sequence are
no part of the instruction (20_memory.md R37, log 15). -/
def decode (c : Command) : Except Reject Instr :=
  match opcodeOf c.op with
  | some o => .ok (instrOf o c.trimmed)
  | none => .error (.illegalCommand c.op)

/-- Decoding of a command word (30_encoding.md R50, R53). -/
def decodeWord (w : BitVec 564) : Except Reject Instr := decode (commandOfWord w)

/-- The low `nbits` bits of a number (00_scope.md R10). -/
def lowBits (nbits w : Nat) : Nat := if w >>> nbits = 0 then w else w % 2 ^ nbits

/-- The instruction the decoder reads from an instruction's bits. A command is one word of 564 bits,
presented whole and in parallel (30_encoding.md R50), so there is no byte order to lay out; bits above
the 564 are no part of it (log 11). -/
def decodeTableWord (nbits w : Nat) : Option Instr :=
  (decode (commandOfBits (lowBits nbits w))).toOption

/-! ## The encoder -/

/-- The operation and the operands of an instruction in their fields, every other field zero. -/
def fieldsOf (i : Instr) : Command :=
  match i with
  | .fromBytes len data =>
    { Command.zero with op := opcodeValue .fromBytes, len := BitVec.ofNat 6 len, data := data }
  | .toBytes a => { Command.zero with op := opcodeValue .toBytes, a := a }
  | .add a b => { Command.zero with op := opcodeValue .add, a := a, b := b }
  | .sub a b => { Command.zero with op := opcodeValue .sub, a := a, b := b }
  | .inc a => { Command.zero with op := opcodeValue .inc, a := a }
  | .dec a => { Command.zero with op := opcodeValue .dec, a := a }
  | .cmp a b => { Command.zero with op := opcodeValue .cmp, a := a, b := b }
  | .b62Enc len wout data =>
    { Command.zero with
      op := opcodeValue .b62Enc, len := BitVec.ofNat 6 len, wout := BitVec.ofNat 6 wout, data := data }
  | .b62Dec len wout data =>
    { Command.zero with
      op := opcodeValue .b62Dec, len := BitVec.ofNat 6 len, wout := BitVec.ofNat 6 wout, data := data }
  | .kCat ts a => { Command.zero with op := opcodeValue .kCat, ts := ts, a := a }
  | .kSplit len data =>
    { Command.zero with op := opcodeValue .kSplit, len := BitVec.ofNat 6 len, data := data }
  | .kGen ts a => { Command.zero with op := opcodeValue .kGen, ts := ts, a := a }
  | .kParse len data =>
    { Command.zero with op := opcodeValue .kParse, len := BitVec.ofNat 6 len, data := data }
  | .kNext len data =>
    { Command.zero with op := opcodeValue .kNext, len := BitVec.ofNat 6 len, data := data }
  | .kPrev len data =>
    { Command.zero with op := opcodeValue .kPrev, len := BitVec.ofNat 6 len, data := data }

/-- The canonical command record of an instruction: every field it does not read is zero, and every lane
at or above `len` (30_encoding.md R61). -/
def commandOf (i : Instr) : Command := (fieldsOf i).trimmed

/-- The canonical command word of an instruction (30_encoding.md R50, R61). -/
def encode (i : Instr) : BitVec 564 := wordOfCommand (commandOf i)

end Sys2Proof
end

