-- ==== Sys2Proof/Machine/Operands.lean ====
section
/-! DEFINITION. How operands are formed from the fields of a command (30_encoding.md R52) and results put
into the fields of a response: sequences in lanes, big-endian values, the byte conversions of a U128, and
which fields each command reads and writes (R55). -/

namespace Sys2Proof.Machine

/-! ## Big-endian values and digits (00_scope.md R11) -/

/-- The value of a digit sequence in a base, the first digit the most significant; 0 for the empty
sequence (00_scope.md R11). -/
def valueOfDigits (base : Nat) (ds : List Nat) : Nat := ds.foldl (fun v d => v * base + d) 0

/-- The `n` digits of a value in a base, the most significant first: digit `i` is
`(v div base^(n-1-i)) mod base` (00_scope.md R11). -/
def digitsOfValue (base n v : Nat) : List Nat :=
  (List.range n).map fun i => v / base ^ (n - 1 - i) % base

/-- `be(s)`, the big-endian value of a byte sequence (00_scope.md R11). -/
def be (s : List Byte) : Nat := valueOfDigits 256 (s.map BitVec.toNat)

/-- `bytes_n(v)`, the `n`-byte big-endian form of a value (00_scope.md R11). -/
def bytesOf (n v : Nat) : List Byte := (digitsOfValue 256 n v).map (BitVec.ofNat 8)

/-! ## Sequences in lanes -/

/-- The input sequence `in = cmd.data[0 .. len-1]` (10_state.md R17). Defined by the spec for
`len ≤ BUFLEN`; no command reads it for a greater `len` (20_memory.md R37). -/
def inputSequence (len : Nat) (data : Lanes) : List Byte := data.toList.take len

/-! ## The byte conversions of a U128 -/

/-- `u128_from_bytes` (40_u128.md R72): the first 8 bytes are the high word, the next 8 the low word. -/
def u128FromBytes (s : List Byte) : U128 :=
  ⟨BitVec.ofNat 64 (be (s.take 8)), BitVec.ofNat 64 (be ((s.drop 8).take 8))⟩

/-- The eight bytes of a word, the most significant first: byte `i` is bits `[63-8i : 56-8i]`
(40_u128.md R73). -/
def bytesOfWord64 (x : Word64) : List Byte :=
  (List.range 8).map fun i => x.extractLsb' (56 - 8 * i) 8

/-- `u128_to_bytes` (40_u128.md R73): always 16 bytes, the high word first. -/
def u128ToBytes (x : U128) : List Byte := bytesOfWord64 x.hi ++ bytesOfWord64 x.lo

/-! ## Fields read and written (30_encoding.md R55) -/

/-- The operand fields a command reads (30_encoding.md R55); of `data`, the lanes below `len`. -/
def fieldsRead : Opcode → List Operand
  | .fromBytes => [.len, .data]
  | .toBytes => [.a]
  | .add => [.a, .b]
  | .sub => [.a, .b]
  | .inc => [.a]
  | .dec => [.a]
  | .cmp => [.a, .b]
  | .b62Enc => [.len, .wout, .data]
  | .b62Dec => [.len, .wout, .data]
  | .kCat => [.ts, .a]
  | .kSplit => [.len, .data]
  | .kGen => [.ts, .a]
  | .kParse => [.len, .data]
  | .kNext => [.len, .data]
  | .kPrev => [.len, .data]

/-- The result fields a command writes when it ends `OK` (30_encoding.md R55). -/
def fieldsWritten : Opcode → List ResultField
  | .fromBytes => [.r]
  | .toBytes => [.rlen, .rdata]
  | .add => [.r]
  | .sub => [.r]
  | .inc => [.r]
  | .dec => [.r]
  | .cmp => [.cmp]
  | .b62Enc => [.rlen, .rdata]
  | .b62Dec => [.rlen, .rdata]
  | .kCat => [.rlen, .rdata]
  | .kSplit => [.rts, .r]
  | .kGen => [.rlen, .rdata]
  | .kParse => [.rts, .r]
  | .kNext => [.rlen, .rdata]
  | .kPrev => [.rlen, .rdata]

end Sys2Proof.Machine
end

