-- ==== Sys2Proof/Config.lean ====
section
/-! DEFINITION. What is fixed for this hardware (00_scope.md R7, R8), and the free values: opaque
constants with no body, for the contents the spec leaves unspecified. -/

namespace Sys2Proof

/-- `TIMESTAMP_BYTES`, bytes of the timestamp field (00_scope.md R7). -/
abbrev Config.timestampBytes : Nat := 4

/-- `PAYLOAD_BYTES`, bytes of the payload field (00_scope.md R7). -/
abbrev Config.payloadBytes : Nat := 16

/-- `TOTAL_BYTES`, bytes of the raw KSUID (00_scope.md R7). -/
abbrev Config.totalBytes : Nat := 20

/-- `ENCODED_LENGTH`, characters of the text form (00_scope.md R7). -/
abbrev Config.encodedLength : Nat := 27

/-- `EPOCH`, the host's constant. No rule of the core reads it (00_scope.md R7, 42_ksuid.md R113), and no
definition of the model does. -/
def Config.epoch : Nat := 1400000000

/-- The contents of the command latch where the spec calls them unspecified: after a reset edge and
between commands (10_state.md R31, U4). One value for each draw; nothing says which. Logs 4 and 5. -/
opaque Config.freeCommand : Nat → Command

/-- The contents of the response latch where the spec calls them unspecified: after a reset edge and
between commands (10_state.md R31, U4). Logs 4 and 5. -/
opaque Config.freeResponse : Nat → Response

/-- The contents of the B62 scratch, which no rule fixes at any cycle (10_state.md R30, R31, U4).
Logs 4 and 6. -/
opaque Config.freeScratch : Nat → Scratch

end Sys2Proof
end

