-- ==== Sys2Proof/Machine/State.lean ====
section
/-! DEFINITION. The state of the KSUID core (10_state.md R21, R23, R30), the host's coming moves, the
reasons a step can stop, and the state after reset. -/

namespace Sys2Proof.Machine

/-- The sequencing state (10_state.md R21). -/
inductive Phase where
  /-- No command held. -/
  | idle
  /-- A command is held and its response is being computed. -/
  | busy
  /-- A response is held and offered. -/
  | done
  deriving DecidableEq, Repr

/-- Everything the machine is between two rising edges of `clk`. -/
structure State where
  /-- `phase` (10_state.md R21). -/
  phase   : Phase
  /-- `lcmd`, the command latch (10_state.md R23). Unspecified while `phase` is IDLE. -/
  lcmd    : Command
  /-- `lrsp`, the response latch (10_state.md R23). Unspecified unless `phase` is DONE. -/
  lrsp    : Response
  /-- The B62 unit's scratch (10_state.md R30). Never read by a rule. -/
  scratch : Scratch
  /-- The MODEL's own: the input ports in the cycles to come, the next one first. Past its end the
  host is quiet. DESIGN CHOICE, log 1. -/
  inputs  : List Cycle
  /-- The MODEL's own: how many free values have been drawn. DESIGN CHOICE, log 4. -/
  draws   : Nat
  deriving DecidableEq, Repr

/-- The machine never stops with a fault: an error is a status in the response (60_exceptions.md R139,
R140) and every command has exactly one response (10_state.md R25). So no constructor. Log 14. -/
inductive Fault where
  deriving DecidableEq, Repr

/-- Why a step is refused. -/
inductive Refusal where
  /-- The instruction with this mnemonic has no meaning yet. Raised by an arm of `exec` alone, and by
  none now. Safe: the run stops. -/
  | notModelled (mnemonic : String)
  deriving DecidableEq, Repr

/-- The machine right after reset (10_state.md R31, 70_reset_and_hazards.md R156). `phase` is the
spec's. The spec gives the latches and the scratch no value; zero is a DESIGN CHOICE (log 3), as are the
quiet host (log 1) and the counter (log 4). -/
def State.reset : State where
  phase   := .idle
  lcmd    := .zero
  lrsp    := .zero
  scratch := ⟨[], 0#6⟩
  inputs  := []
  draws   := 0

end Sys2Proof.Machine
end

