-- ==== Sys2Proof/Machine/Ops.lean ====
section
/-! DEFINITION. The operations every meaning and every step is made of: the ports, the four moves of the
core (10_state.md R22), ending a command with a response, and ending it with an error, which is the whole
of what this machine has for taking an exception (60_exceptions.md R139). -/

namespace Sys2Proof.Machine

/-! ## Ports -/

/-- The input ports in the current cycle; the host is quiet past the end of `inputs` (log 1). -/
def State.cycle (s : State) : Cycle := s.inputs.headD .quiet

/-- The state as the next cycle's ports come up: the current cycle's are gone. -/
def State.advance (s : State) : State := { s with inputs := s.inputs.tail }

/-- `cmd_ready`: 1 exactly when `phase = IDLE` and `rst = 0` (10_state.md R16). -/
def State.cmdReady (s : State) : Bool := decide (s.phase = .idle) && !s.cycle.rst

/-- `rsp_valid`: 1 exactly when `phase = DONE` and `rst = 0` (10_state.md R16). -/
def State.rspValid (s : State) : Bool := decide (s.phase = .done) && !s.cycle.rst

/-- The `rsp_*` data ports: `lrsp` while `rsp_valid = 1`, and no value otherwise (10_state.md R16, R22,
U6; log 13). -/
def State.rspPort (s : State) : Option Response := if s.rspValid then some s.lrsp else none

/-! ## The moves of the core -/

/-- The scratch holds whatever it holds: no rule fixes its contents (10_state.md R30, R31, U4; log 6). -/
def State.drawScratch (s : State) : State :=
  { s with scratch := Config.freeScratch s.draws, draws := s.draws + 1 }

/-- `accept`: the command on the ports is latched (10_state.md R22, R23). -/
def State.accept (c : Command) (s : State) : State :=
  { s.drawScratch with phase := .busy, lcmd := c }

/-- A cycle in BUSY before completion: nothing but the hidden scratch changes (10_state.md R22, R30). -/
def State.compute (s : State) : State := s.drawScratch

/-- `complete`: the response is latched (10_state.md R22, which writes nothing else but `phase`). -/
def State.complete (r : Response) (s : State) : State :=
  { s.drawScratch with phase := .done, lrsp := r }

/-- `retire`: the response has been taken (10_state.md R22). What the latches hold between commands is
unspecified (R24, R31, U4; log 5). -/
def State.retire (s : State) : State :=
  { s with
    phase := .idle, lcmd := Config.freeCommand s.draws, lrsp := Config.freeResponse s.draws,
    draws := s.draws + 1 }

/-- A rising edge with `rst = 1`: any phase to IDLE, the contents of the latches and the scratch
unspecified (70_reset_and_hazards.md R156, R157; log 4). -/
def State.resetEdge (s : State) : State :=
  { s with
    phase := .idle, lcmd := Config.freeCommand s.draws, lrsp := Config.freeResponse s.draws,
    scratch := Config.freeScratch s.draws, draws := s.draws + 1 }

/-! ## Responses -/

/-- The response of `raise S`: the status, and every other field zero (60_exceptions.md R139). -/
def raisedResponse (S : Status) : Response := { Response.zero with status := S }

/-- The response that carries a sequence: `rlen` its length, its elements from lane 0 on, zero above
(20_memory.md R36, R37; 10_state.md R20). -/
def sequenceResponse (out : List Byte) : Response :=
  { Response.zero with rlen := BitVec.ofNat 6 out.length, rdata := lanesOfList out }

/-- `let x = f(y) else raise`: the response made from the value, or the error's (00_scope.md R13). -/
def responseOr {α : Type} (x : Except Status α) (k : α → Response) : Response :=
  match x with
  | .ok v => k v
  | .error S => raisedResponse S

/-! ## Ending a command -/

/-- A command ends with a response: the step `complete` (10_state.md R22, 30_encoding.md R54). -/
def finish (r : Response) (s : State) : Host.Outcome State Fault Refusal := .next (s.complete r)

/-- Taking an error: the command ends with the status and nothing else; nothing is saved, no mode
changes, control goes nowhere (60_exceptions.md R139). There is no return from it, because nothing was
entered: the host takes the response by `State.retire` and the core is idle as after any other (R140). -/
def raise (S : Status) (s : State) : Host.Outcome State Fault Refusal := finish (raisedResponse S) s

/-! ## Placing a command -/

/-- The state in which the core holds a command and completes it in the very next step: `BUSY`, the
command in the latch, and, where the host has moves to come, one quiet cycle before them (log 10). -/
def State.placeCommand (c : Command) (s : State) : State :=
  { s with
    phase := .busy, lcmd := c,
    inputs := match s.inputs with
      | [] => []
      | e :: es => Cycle.quiet :: e :: es }

end Sys2Proof.Machine
end

