-- ==== Sys2Proof/Machine/Radix.lean ====
section
/-! DEFINITION. The radix conversion of the B62 unit (41_base62.md): the alphabet, each direction by
value (R93, R96), which the commands use, and each direction as the unit's repeated long division
(R94, R97), which the rules R95 and R98 say is the same. -/

namespace Sys2Proof.Machine

/-! ## The alphabet -/

/-- `val62`: the digit value of a lane that holds one of the 62 characters, none for the 194 other
values (41_base62.md R91). The codes are ASCII's (R90, log 9). -/
def val62 (c : Byte) : Option Nat :=
  if 0x30 ≤ c.toNat ∧ c.toNat ≤ 0x39 then some (c.toNat - 0x30)
  else if 0x41 ≤ c.toNat ∧ c.toNat ≤ 0x5A then some (c.toNat - 0x41 + 10)
  else if 0x61 ≤ c.toNat ∧ c.toNat ≤ 0x7A then some (c.toNat - 0x61 + 36)
  else none

/-- `sym62`: the lane code of a digit value 0 to 61 (41_base62.md R92). -/
def sym62 (v : Nat) : Byte :=
  if v ≤ 9 then BitVec.ofNat 8 (0x30 + v)
  else if v ≤ 35 then BitVec.ofNat 8 (0x41 + (v - 10))
  else BitVec.ofNat 8 (0x61 + (v - 36))

/-- The digit values of a string, none if some lane is not one of the 62 characters
(41_base62.md R96). -/
def digitsOfString : List Byte → Option (List Nat)
  | [] => some []
  | c :: cs =>
    match val62 c, digitsOfString cs with
    | some d, some ds => some (d :: ds)
    | _, _ => none

/-! ## By value -/

/-- `b62_encode(s, W)` by value (41_base62.md R93). -/
def b62Encode (s : List Byte) (W : Nat) : Except Status (List Byte) :=
  if 62 ^ W ≤ be s then .error .encodingOverflow
  else .ok ((digitsOfValue 62 W (be s)).map sym62)

/-- `b62_decode(u, N)` by value: every character first, then the value (41_base62.md R96). -/
def b62Decode (u : List Byte) (N : Nat) : Except Status (List Byte) :=
  match digitsOfString u with
  | none => .error .invalidCharacter
  | some ds =>
    if 256 ^ N ≤ valueOfDigits 62 ds then .error .decodingOverflow
    else .ok (bytesOf N (valueOfDigits 62 ds))

/-! ## By repeated long division -/

/-- One digit of a long division: the quotient so far and the remainder, then the next digit of the
dividend. A zero quotient digit is dropped only before the first non-zero one (41_base62.md R94, U12). -/
def divideDigit (base divisor : Nat) (st : List Nat × Nat) (d : Nat) : List Nat × Nat :=
  (if st.1 ≠ [] ∨ (st.2 * base + d) / divisor ≠ 0 then st.1 ++ [(st.2 * base + d) / divisor] else st.1,
   (st.2 * base + d) % divisor)

/-- One pass: the quotient, with no leading zero digit, and the remainder (41_base62.md R94, R97). -/
def dividePass (base divisor : Nat) (dividend : List Nat) : List Nat × Nat :=
  dividend.foldl (divideDigit base divisor) ([], 0)

/-- The passes: `pos` positions still to write, the remaining dividend, and the digits written so far.
None when the dividend is not used up and no position is left (41_base62.md R94, R97). -/
def convertLoop (base divisor : Nat) : Nat → List Nat → List Nat → Option (List Nat)
  | 0, [], out => some out
  | 0, _ :: _, _ => none
  | pos + 1, [], out => some (List.replicate (pos + 1) 0 ++ out)
  | pos + 1, d :: ds, out =>
    convertLoop base divisor pos (dividePass base divisor (d :: ds)).1
      ((dividePass base divisor (d :: ds)).2 :: out)

/-- The conversion of a digit sequence from one base to `n` digits of another, its leading zero digits
removed before the first pass (41_base62.md R94, R97). -/
def convertDigits (base divisor : Nat) (ds : List Nat) (n : Nat) : Option (List Nat) :=
  convertLoop base divisor n (ds.dropWhile fun d => d == 0) []

/-- `b62_encode_alg(s, W)` (41_base62.md R94). -/
def b62EncodeAlg (s : List Byte) (W : Nat) : Except Status (List Byte) :=
  match convertDigits 256 62 (s.map BitVec.toNat) W with
  | none => .error .encodingOverflow
  | some ds => .ok (ds.map sym62)

/-- `b62_decode_alg(u, N)` (41_base62.md R97). -/
def b62DecodeAlg (u : List Byte) (N : Nat) : Except Status (List Byte) :=
  match digitsOfString u with
  | none => .error .invalidCharacter
  | some us =>
    match convertDigits 62 256 us N with
    | none => .error .decodingOverflow
    | some ds => .ok (ds.map (BitVec.ofNat 8))

end Sys2Proof.Machine
end

