-- ==== Sys2Proof/Machine/B62Unit.lean ====
section
/-! DEFINITION. The B62 unit's commands B62ENC and B62DEC (41_base62.md R101, R102). -/

namespace Sys2Proof.Machine

/-- B62ENC: the lengths, then the value (41_base62.md R101). -/
def respondB62Enc (len wout : Nat) (data : Lanes) : Response :=
  if BUFLEN < len ∨ BUFLEN < wout then raisedResponse .invalidLength
  else responseOr (b62Encode (inputSequence len data) wout) sequenceResponse

/-- B62DEC: the lengths, then every character, then the value (41_base62.md R102). -/
def respondB62Dec (len wout : Nat) (data : Lanes) : Response :=
  if BUFLEN < len ∨ BUFLEN < wout then raisedResponse .invalidLength
  else responseOr (b62Decode (inputSequence len data) wout) sequenceResponse

/-- B62ENC (41_base62.md R101). -/
def execB62Enc (len wout : Nat) (data : Lanes) (s : State) : Host.Outcome State Fault Refusal :=
  finish (respondB62Enc len wout data) s

/-- B62DEC (41_base62.md R102). -/
def execB62Dec (len wout : Nat) (data : Lanes) (s : State) : Host.Outcome State Fault Refusal :=
  finish (respondB62Dec len wout data) s

end Sys2Proof.Machine
end

