-- ==== Sys2Proof/Machine/Flags.lean ====
section
/-! DEFINITION. The carry and the borrow of a word (40_u128.md R74, R75) and the three-way comparison
(R78). The core has no flags register: the carry and the borrow are internal to the U128 unit and the
comparison is the result of CMP (10_state.md R28). -/

namespace Sys2Proof.Machine

/-- 64-bit addition with carry in: the sum modulo `2^64` and the carry out, by value
(40_u128.md R74; the comparison form is not used, 90_conflicts.md C1). -/
def add64 (a b : Word64) (c : Bool) : Word64 × Bool :=
  (BitVec.ofNat 64 (a.toNat + b.toNat + c.toNat), decide (2 ^ 64 ≤ a.toNat + b.toNat + c.toNat))

/-- 64-bit subtraction with borrow in: the difference modulo `2^64` and the borrow out, by value
(40_u128.md R75; the comparison form is not used, 90_conflicts.md C1). -/
def sub64 (a b : Word64) (c : Bool) : Word64 × Bool :=
  (a - b - BitVec.ofNat 64 c.toNat, decide (a.toNat < b.toNat + c.toNat))

/-- `u128_compare`, lexicographic on `(high, low)`, unsigned (40_u128.md R78). -/
def u128Compare (a b : U128) : Comparison :=
  if a.hi < b.hi then .less
  else if b.hi < a.hi then .greater
  else if a.lo < b.lo then .less
  else if b.lo < a.lo then .greater
  else .equal

end Sys2Proof.Machine
end

