-- ==== Sys2Proof/Machine/U128Unit.lean ====
section
/-! DEFINITION. The U128 unit (40_u128.md): word-wise arithmetic and the seven commands FROMBYTES,
TOBYTES, ADD, SUB, INC, DEC, CMP. Each command has its response, a pure function of the fields it reads,
and its meaning, which completes with that response. -/

namespace Sys2Proof.Machine

/-- `u128_add`, low word first, its carry into the high word, the high carry discarded
(40_u128.md R76). -/
def u128Add (a b : U128) : U128 :=
  ⟨(add64 a.hi b.hi (add64 a.lo b.lo false).2).1, (add64 a.lo b.lo false).1⟩

/-- `u128_sub`, low word first, its borrow from the high word, the high borrow discarded
(40_u128.md R77). -/
def u128Sub (a b : U128) : U128 :=
  ⟨(sub64 a.hi b.hi (sub64 a.lo b.lo false).2).1, (sub64 a.lo b.lo false).1⟩

/-! ## Responses -/

/-- FROMBYTES (40_u128.md R80). -/
def respondFromBytes (len : Nat) (data : Lanes) : Response :=
  if len ≠ Config.payloadBytes then raisedResponse .invalidLength
  else { Response.zero with r := u128FromBytes (inputSequence len data) }

/-- TOBYTES (40_u128.md R81). -/
def respondToBytes (a : U128) : Response := sequenceResponse (u128ToBytes a)

/-- ADD (40_u128.md R82). -/
def respondAdd (a b : U128) : Response := { Response.zero with r := u128Add a b }

/-- SUB (40_u128.md R83). -/
def respondSub (a b : U128) : Response := { Response.zero with r := u128Sub a b }

/-- INC (40_u128.md R84). -/
def respondInc (a : U128) : Response := { Response.zero with r := u128Add a .one }

/-- DEC (40_u128.md R85). -/
def respondDec (a : U128) : Response := { Response.zero with r := u128Sub a .one }

/-- CMP (40_u128.md R86). -/
def respondCmp (a b : U128) : Response := { Response.zero with cmp := u128Compare a b }

/-! ## Meanings -/

/-- FROMBYTES (40_u128.md R80). -/
def execFromBytes (len : Nat) (data : Lanes) (s : State) : Host.Outcome State Fault Refusal :=
  finish (respondFromBytes len data) s

/-- TOBYTES (40_u128.md R81). -/
def execToBytes (a : U128) (s : State) : Host.Outcome State Fault Refusal :=
  finish (respondToBytes a) s

/-- ADD (40_u128.md R82). -/
def execAdd (a b : U128) (s : State) : Host.Outcome State Fault Refusal :=
  finish (respondAdd a b) s

/-- SUB (40_u128.md R83). -/
def execSub (a b : U128) (s : State) : Host.Outcome State Fault Refusal :=
  finish (respondSub a b) s

/-- INC (40_u128.md R84). -/
def execInc (a : U128) (s : State) : Host.Outcome State Fault Refusal :=
  finish (respondInc a) s

/-- DEC (40_u128.md R85). -/
def execDec (a : U128) (s : State) : Host.Outcome State Fault Refusal :=
  finish (respondDec a) s

/-- CMP (40_u128.md R86). -/
def execCmp (a b : U128) (s : State) : Host.Outcome State Fault Refusal :=
  finish (respondCmp a b) s

end Sys2Proof.Machine
end

