-- ==== Sys2Proof/Machine/KscUnit.lean ====
section
/-! DEFINITION. The KSC unit (42_ksuid.md): the KSUID composition datapath and the six commands KCAT,
KSPLIT, KGEN, KPARSE, KNEXT, KPREV. No rule of it reads the epoch (R113). -/

namespace Sys2Proof.Machine

/-- The four bytes of a timestamp, the most significant first (42_ksuid.md R111). -/
def bytesOfTimestamp (ts : Timestamp) : List Byte :=
  (List.range 4).map fun i => ts.extractLsb' (24 - 8 * i) 8

/-- `ksuid_cat`: the 20-byte wire form (42_ksuid.md R111). -/
def ksuidCat (ts : Timestamp) (p : U128) : List Byte := bytesOfTimestamp ts ++ u128ToBytes p

/-- `ksuid_split`: the timestamp and the payload of a 20-byte wire form (42_ksuid.md R112). -/
def ksuidSplit (w : List Byte) : Timestamp × U128 :=
  (BitVec.ofNat 32 (be (w.take Config.timestampBytes)), u128FromBytes (w.drop Config.timestampBytes))

/-- `ksuid_generate`: the 27-character text form (42_ksuid.md R114). The encoding cannot fail, but that
is a fact about it and not part of its definition. -/
def ksuidGenerate (ts : Timestamp) (p : U128) : Except Status (List Byte) :=
  b62Encode (ksuidCat ts p) Config.encodedLength

/-- `ksuid_parse` (42_ksuid.md R115). -/
def ksuidParse (u : List Byte) : Except Status (Timestamp × U128) :=
  if u.length ≠ Config.encodedLength then .error .invalidLength
  else (b62Decode u Config.totalBytes).map ksuidSplit

/-- The timestamp and payload after a KSUID: the payload plus one, and one more second when it wrapped to
zero, modulo `2^32` (42_ksuid.md R116, R118). -/
def stepUp (k : Timestamp × U128) : Timestamp × U128 :=
  (if u128Compare (u128Add k.2 .one) .zero = .equal then k.1 + 1#32 else k.1, u128Add k.2 .one)

/-- The timestamp and payload before a KSUID: the payload minus one, and one second less when it wrapped
to `MAX_U128`, modulo `2^32` (42_ksuid.md R117, R118). -/
def stepDown (k : Timestamp × U128) : Timestamp × U128 :=
  (if u128Compare (u128Sub k.2 .one) .max = .equal then k.1 - 1#32 else k.1, u128Sub k.2 .one)

/-- `ksuid_next` (42_ksuid.md R116). -/
def ksuidNext (u : List Byte) : Except Status (List Byte) :=
  match ksuidParse u with
  | .error S => .error S
  | .ok k => ksuidGenerate (stepUp k).1 (stepUp k).2

/-- `ksuid_prev` (42_ksuid.md R117). -/
def ksuidPrev (u : List Byte) : Except Status (List Byte) :=
  match ksuidParse u with
  | .error S => .error S
  | .ok k => ksuidGenerate (stepDown k).1 (stepDown k).2

/-! ## Responses -/

/-- The response that carries a timestamp and a payload: `rsp.rts` and `rsp.r`. -/
def partsResponse (k : Timestamp × U128) : Response := { Response.zero with rts := k.1, r := k.2 }

/-- KCAT (42_ksuid.md R120). -/
def respondKCat (ts : Timestamp) (a : U128) : Response := sequenceResponse (ksuidCat ts a)

/-- KSPLIT (42_ksuid.md R121). -/
def respondKSplit (len : Nat) (data : Lanes) : Response :=
  if len ≠ Config.totalBytes then raisedResponse .invalidLength
  else partsResponse (ksuidSplit (inputSequence len data))

/-- KGEN (42_ksuid.md R122). -/
def respondKGen (ts : Timestamp) (a : U128) : Response :=
  responseOr (ksuidGenerate ts a) sequenceResponse

/-- KPARSE (42_ksuid.md R123). -/
def respondKParse (len : Nat) (data : Lanes) : Response :=
  if len ≠ Config.encodedLength then raisedResponse .invalidLength
  else responseOr (ksuidParse (inputSequence len data)) partsResponse

/-- KNEXT (42_ksuid.md R124). -/
def respondKNext (len : Nat) (data : Lanes) : Response :=
  if len ≠ Config.encodedLength then raisedResponse .invalidLength
  else responseOr (ksuidNext (inputSequence len data)) sequenceResponse

/-- KPREV (42_ksuid.md R125). -/
def respondKPrev (len : Nat) (data : Lanes) : Response :=
  if len ≠ Config.encodedLength then raisedResponse .invalidLength
  else responseOr (ksuidPrev (inputSequence len data)) sequenceResponse

/-! ## Meanings -/

/-- KCAT (42_ksuid.md R120). -/
def execKCat (ts : Timestamp) (a : U128) (s : State) : Host.Outcome State Fault Refusal :=
  finish (respondKCat ts a) s

/-- KSPLIT (42_ksuid.md R121). -/
def execKSplit (len : Nat) (data : Lanes) (s : State) : Host.Outcome State Fault Refusal :=
  finish (respondKSplit len data) s

/-- KGEN (42_ksuid.md R122). -/
def execKGen (ts : Timestamp) (a : U128) (s : State) : Host.Outcome State Fault Refusal :=
  finish (respondKGen ts a) s

/-- KPARSE (42_ksuid.md R123). -/
def execKParse (len : Nat) (data : Lanes) (s : State) : Host.Outcome State Fault Refusal :=
  finish (respondKParse len data) s

/-- KNEXT (42_ksuid.md R124). -/
def execKNext (len : Nat) (data : Lanes) (s : State) : Host.Outcome State Fault Refusal :=
  finish (respondKNext len data) s

/-- KPREV (42_ksuid.md R125). -/
def execKPrev (len : Nat) (data : Lanes) (s : State) : Host.Outcome State Fault Refusal :=
  finish (respondKPrev len data) s

end Sys2Proof.Machine
end

