-- ==== Sys2Proof/Machine/Dispatch.lean ====
section
/-! DEFINITION. The meaning of each instruction, one arm per constructor (30_encoding.md R53). -/

namespace Sys2Proof.Machine

def exec (i : Instr) (s : State) : Host.Outcome State Fault Refusal :=
  match i with
  -- the U128 unit
  | .fromBytes len data => Sys2Proof.Machine.execFromBytes len data s
  | .toBytes a => Sys2Proof.Machine.execToBytes a s
  | .add a b => Sys2Proof.Machine.execAdd a b s
  | .sub a b => Sys2Proof.Machine.execSub a b s
  | .inc a => Sys2Proof.Machine.execInc a s
  | .dec a => Sys2Proof.Machine.execDec a s
  | .cmp a b => Sys2Proof.Machine.execCmp a b s
  -- the B62 unit
  | .b62Enc len wout data => Sys2Proof.Machine.execB62Enc len wout data s
  | .b62Dec len wout data => Sys2Proof.Machine.execB62Dec len wout data s
  -- the KSC unit
  | .kCat ts a => Sys2Proof.Machine.execKCat ts a s
  | .kSplit len data => Sys2Proof.Machine.execKSplit len data s
  | .kGen ts a => Sys2Proof.Machine.execKGen ts a s
  | .kParse len data => Sys2Proof.Machine.execKParse len data s
  | .kNext len data => Sys2Proof.Machine.execKNext len data s
  | .kPrev len data => Sys2Proof.Machine.execKPrev len data s

end Sys2Proof.Machine
end

