-- ==== Sys2Proof/Machine/Event.lean ====
section
/-! DEFINITION. What happens at a rising edge of `clk` (10_state.md R22, 70_reset_and_hazards.md R155): which
of the moves it is, and the run of the latched command. -/

namespace Sys2Proof.Machine

/-- The moves at a rising edge. -/
inductive Event where
  /-- `rst = 1` (70_reset_and_hazards.md R155). -/
  | reset
  /-- `accept` of the command on the ports (10_state.md R22). -/
  | accept (c : Command)
  /-- A cycle in BUSY before completion (10_state.md R22). -/
  | compute
  /-- `complete` (10_state.md R22). -/
  | complete
  /-- `retire` (10_state.md R22). -/
  | retire
  /-- Nothing: IDLE with no command offered, or DONE with the response not taken (10_state.md R22). -/
  | hold
  deriving DecidableEq, Repr

/-- Which move the current cycle's edge is. Reset wins over everything (70_reset_and_hazards.md R155,
R157); then the phase decides, and the one port it looks at (10_state.md R22). -/
def State.event (s : State) : Event :=
  if s.cycle.rst then .reset
  else
    match s.phase with
    | .idle => if s.cycle.cmdValid then .accept s.cycle.cmd else .hold
    | .busy => if s.cycle.settled then .complete else .compute
    | .done => if s.cycle.rspReady then .retire else .hold

/-- The run of a command: its instruction's meaning, or `IllegalCommand` where the decoder rejects it
(30_encoding.md R53, 60_exceptions.md R137). -/
def runCommand (c : Command) (s : State) : Host.Outcome State Fault Refusal :=
  match decode c with
  | .ok i => exec i s
  | .error (.illegalCommand _) => raise .illegalCommand s

end Sys2Proof.Machine
end

