-- ==== Sys2Proof/Machine/Step.lean ====
section
/-! DEFINITION. One step: one rising edge of `clk` (10_state.md R16, R22), and the placing of one command
for the next step to run. -/

namespace Sys2Proof.Machine

/-- One rising edge of `clk`: the move the current cycle makes, on the state with the next cycle's ports
(10_state.md R22, 70_reset_and_hazards.md R155). -/
def step (s : State) : Host.Outcome State Fault Refusal :=
  match s.event with
  | .reset => .next s.advance.resetEdge
  | .accept c => .next (s.advance.accept c)
  | .compute => .next s.advance.compute
  | .complete => runCommand s.lcmd s.advance
  | .retire => .next s.advance.retire
  | .hold => .next s.advance

/-- The state with the command whose word is the low `nbits` bits of `w` held by the core, its response due
in the next step. The core fetches nothing (10_state.md R24): this stands for the host's presenting the
command and the core's accepting it. Log 10. -/
def State.withFetchWord (s : State) (nbits w : Nat) : State :=
  s.placeCommand (commandOfBits (lowBits nbits w))

end Sys2Proof.Machine
end

