-- ==== Sys2Proof/Machine/Respond.lean ====
section
/-! DEFINITION. The function the spec calls `Exec`: from a command to its one response
(10_state.md R25, 30_encoding.md R53), total and reading nothing but the command. -/

namespace Sys2Proof.Machine

/-- The response of an instruction (30_encoding.md R53). -/
def respondInstr : Instr → Response
  | .fromBytes len data => respondFromBytes len data
  | .toBytes a => respondToBytes a
  | .add a b => respondAdd a b
  | .sub a b => respondSub a b
  | .inc a => respondInc a
  | .dec a => respondDec a
  | .cmp a b => respondCmp a b
  | .b62Enc len wout data => respondB62Enc len wout data
  | .b62Dec len wout data => respondB62Dec len wout data
  | .kCat ts a => respondKCat ts a
  | .kSplit len data => respondKSplit len data
  | .kGen ts a => respondKGen ts a
  | .kParse len data => respondKParse len data
  | .kNext len data => respondKNext len data
  | .kPrev len data => respondKPrev len data

/-- `Exec`: the response of a command, `IllegalCommand` where its `op` is not in the opcode map
(10_state.md R25, 60_exceptions.md R137). -/
def respond (c : Command) : Response :=
  match decode c with
  | .ok i => respondInstr i
  | .error (.illegalCommand _) => raisedResponse .illegalCommand

end Sys2Proof.Machine
end

