-- ==== Sys2Proof/Machine/Observe.lean ====
section
/-! DEFINITION. What the host observes of a run (70_reset_and_hazards.md R167): the commands accepted and the
responses taken, edge by edge. -/

namespace Sys2Proof.Machine

/-- The command this edge accepts, if it accepts one. -/
def State.acceptedNow (s : State) : List Command :=
  if s.cmdReady && s.cycle.cmdValid then [s.cycle.cmd] else []

/-- The response the host takes at this edge, if it takes one. -/
def State.takenNow (s : State) : List Response :=
  if s.rspValid && s.cycle.rspReady then [s.lrsp] else []

/-- The commands accepted and the responses taken in the first `n` edges, and the state after them (the
state before the stop, should a step stop). -/
def observe : Nat → State → List Command × List Response × State
  | 0, s => ([], [], s)
  | n + 1, s =>
    match step s with
    | .next t => (s.acceptedNow ++ (observe n t).1, s.takenNow ++ (observe n t).2.1, (observe n t).2.2)
    | .fault _ => ([], [], s)
    | .refused _ => ([], [], s)

end Sys2Proof.Machine
end

