-- ==== Sys2Proof/Safety.lean ====
section
/-! DEFINITION. The terms claims about the KSUID core are stated in: what completing a command leaves alone, the
invariant of its states, which commands read alike, when each status is due, and what a valid KSUID
string is. -/

namespace Sys2Proof.Machine

/-! ## Completion -/

/-- What completing a command does besides latching the response: the core is in DONE, the command latch
and the host's coming moves are as before (10_state.md R22). The hidden scratch may hold anything. -/
abbrev Completed (s t : State) : Prop :=
  t.phase = .done ∧ t.lcmd = s.lcmd ∧ t.inputs = s.inputs

/-! ## The invariant -/

/-- A response offered is the response of the command held: in DONE, `lrsp = Exec(lcmd)`
(10_state.md R22, R27). -/
abbrev State.Consistent (s : State) : Prop := s.phase = .done → s.lrsp = respond s.lcmd

/-- The responses still owed to the host: that of the command held, in BUSY and in DONE. -/
def State.outstanding (s : State) : List Response :=
  match s.phase with
  | .idle => []
  | .busy => [respond s.lcmd]
  | .done => [respond s.lcmd]

/-- The host asserts no reset in the next `n` cycles. -/
abbrev State.NoReset (n : Nat) (s : State) : Prop := ∀ e ∈ s.inputs.take n, e.rst = false

/-- Two states that differ at most in what no port can show: the scratch, the count of free values, the
command latch outside BUSY and the response latch outside DONE (10_state.md R30, R31). -/
abbrev SameVisible (s t : State) : Prop :=
  s.phase = t.phase ∧ s.inputs = t.inputs ∧ (s.phase = .busy → s.lcmd = t.lcmd) ∧
    (s.phase = .done → s.lrsp = t.lrsp)

/-! ## Fields read and written -/

/-- Two commands agree on an operand field; on `data`, on the lanes below `len`, and on none where `len`
exceeds `BUFLEN` (10_state.md R26, 20_memory.md R37). -/
def operandAgrees (c d : Command) : Operand → Prop
  | .a => c.a = d.a
  | .b => c.b = d.b
  | .ts => c.ts = d.ts
  | .len => c.len = d.len
  | .wout => c.wout = d.wout
  | .data => c.len.toNat ≤ BUFLEN →
      inputSequence c.len.toNat c.data = inputSequence d.len.toNat d.data

/-- An operand field of a command is zero (30_encoding.md R61). -/
def operandIsZero (c : Command) : Operand → Prop
  | .a => c.a = .zero
  | .b => c.b = .zero
  | .ts => c.ts = 0#32
  | .len => c.len = 0#6
  | .wout => c.wout = 0#6
  | .data => c.data = .zero

/-- Two commands agree on `op` and on every field their operation reads (10_state.md R26). -/
def AgreeOnRead (c d : Command) : Prop :=
  c.op = d.op ∧ ∀ o, opcodeOf c.op = some o → ∀ f ∈ fieldsRead o, operandAgrees c d f

/-- A result field of a response is zero. -/
def resultIsZero (r : Response) : ResultField → Prop
  | .cmp => r.cmp = .equal
  | .r => r.r = .zero
  | .rts => r.rts = 0#32
  | .rlen => r.rlen = 0#6
  | .rdata => r.rdata = .zero

/-! ## When each status is due (60_exceptions.md R136) -/

/-- The input sequence of a command. -/
def inputOf (c : Command) : List Byte := inputSequence c.len.toNat c.data

/-- The `InvalidLength` column of the table (60_exceptions.md R136). -/
def lengthFault (o : Opcode) (c : Command) : Bool :=
  match o with
  | .fromBytes => c.len.toNat != 16
  | .b62Enc => decide (BUFLEN < c.len.toNat) || decide (BUFLEN < c.wout.toNat)
  | .b62Dec => decide (BUFLEN < c.len.toNat) || decide (BUFLEN < c.wout.toNat)
  | .kSplit => c.len.toNat != 20
  | .kParse => c.len.toNat != 27
  | .kNext => c.len.toNat != 27
  | .kPrev => c.len.toNat != 27
  | .toBytes => false
  | .add => false
  | .sub => false
  | .inc => false
  | .dec => false
  | .cmp => false
  | .kCat => false
  | .kGen => false

/-- The commands that read characters (60_exceptions.md R136, 90_conflicts.md C8). -/
def readsCharacters : Opcode → Bool
  | .b62Dec => true
  | .kParse => true
  | .kNext => true
  | .kPrev => true
  | .fromBytes => false
  | .toBytes => false
  | .add => false
  | .sub => false
  | .inc => false
  | .dec => false
  | .cmp => false
  | .b62Enc => false
  | .kCat => false
  | .kSplit => false
  | .kGen => false

/-- The `InvalidCharacter` column of the table: some lane of the input is not one of the 62 characters
(60_exceptions.md R136). -/
def characterFault (o : Opcode) (c : Command) : Bool :=
  readsCharacters o && (inputOf c).any fun x => (val62 x).isNone

/-- The `EncodingOverflow` column of the table (60_exceptions.md R136). -/
def encodingFault (o : Opcode) (c : Command) : Bool :=
  decide (o = .b62Enc) && decide (62 ^ c.wout.toNat ≤ be (inputOf c))

/-- The number of bytes a command that reads characters decodes into. -/
def decodedBytes (o : Opcode) (c : Command) : Nat := if o = .b62Dec then c.wout.toNat else 20

/-- The value of a string, each lane by its digit value (41_base62.md R96). -/
def stringValue (u : List Byte) : Nat := valueOfDigits 62 (u.map fun x => (val62 x).getD 0)

/-- The `DecodingOverflow` column of the table (60_exceptions.md R136). -/
def decodingFault (o : Opcode) (c : Command) : Bool :=
  readsCharacters o && decide (256 ^ decodedBytes o c ≤ stringValue (inputOf c))

/-- The status a command is due, the first in the order of priority (60_exceptions.md R136, R138). -/
def dueStatus (c : Command) : Status :=
  match opcodeOf c.op with
  | none => .illegalCommand
  | some o =>
    if lengthFault o c then .invalidLength
    else if characterFault o c then .invalidCharacter
    else if encodingFault o c then .encodingOverflow
    else if decodingFault o c then .decodingOverflow
    else .ok

/-! ## KSUIDs -/

/-- The 160-bit value `K(ts, p)` of a KSUID (42_ksuid.md R110). -/
def ksuidValue (ts : Timestamp) (p : U128) : Nat := ts.toNat * 2 ^ 128 + p.val

/-- Every lane of a string holds one of the 62 characters (41_base62.md R91). -/
abbrev AllCharacters (u : List Byte) : Prop := ∀ x ∈ u, (val62 x).isSome

/-- A valid KSUID string: 27 valid characters with a value below `2^160` (42_ksuid.md R127, R129,
90_conflicts.md C5). -/
abbrev ValidKsuidString (u : List Byte) : Prop :=
  u.length = 27 ∧ AllCharacters u ∧ stringValue u < 2 ^ 160

end Sys2Proof.Machine
end

