-- ==== Sys2Proof/Certificates/Slice0/Obligations.lean ====
section
/-! DEFINITION. The statements for the provers, each from a rule of spec/. `be` is the big-endian value of
a byte sequence, `stringValue` that of a string, `ksuidValue` that of a KSUID. -/

section

open Sys2Proof Sys2Proof.Machine

/-! ## The U128 unit -/

/-- FROMBYTES (40_u128.md section 5): op 0x10 decodes to it; of 16 bytes it gives the U128 whose high word
is the value of the first eight, whose low word is that of the last eight, and whose value is that of all
sixteen; of any other length, `InvalidLength`. That the decoder clears the lanes at or above `len`, and what
a count above 63 does, are the model's choices (log 15). -/
def Obligations.FromBytesReadsSixteenBytesBigEndian : Prop :=
  (∀ c : Command, decode { c with op := 0x10#8 } = .ok (.fromBytes c.len.toNat (keepLanes c.len.toNat c.data))) ∧
  (∀ (len : Nat) (data : Lanes) (s : State), len = 16 →
    ∃ t, exec (.fromBytes len data) s = .next t ∧ Completed s t ∧
      ∃ r : U128, t.lrsp = { Response.zero with r := r } ∧
        r.hi.toNat = be (data.toList.take 8) ∧ r.lo.toNat = be ((data.toList.drop 8).take 8) ∧
        r.val = be (data.toList.take 16)) ∧
  (∀ (len : Nat) (data : Lanes) (s : State), len ≠ 16 →
    ∃ t, exec (.fromBytes len data) s = .next t ∧ Completed s t ∧
      t.lrsp = { Response.zero with status := .invalidLength })

/-- TOBYTES (40_u128.md R81): op 0x11 decodes to it; it gives sixteen bytes whatever the value, byte by byte
the words' bits, with the value of `a`, and zero in every lane above. -/
def Obligations.ToBytesWritesSixteenBytesBigEndian : Prop :=
  (∀ c : Command, decode { c with op := 0x11#8 } = .ok (.toBytes c.a)) ∧
  ∀ (a : U128) (s : State),
    ∃ t, exec (.toBytes a) s = .next t ∧ Completed s t ∧
      ∃ v : Lanes, t.lrsp = { Response.zero with rlen := 16#6, rdata := v } ∧
        be (v.toList.take 16) = a.val ∧
        ∀ (i : Nat) (h : i < BUFLEN), v[i] =
          if i < 8 then a.hi.extractLsb' (56 - 8 * i) 8
          else if i < 16 then a.lo.extractLsb' (56 - 8 * (i - 8)) 8
          else 0#8

/-- ADD (40_u128.md R82): op 0x12 decodes to it; the result is the sum modulo `2^128`, with status `OK` and
every other field zero, also when it wraps. -/
def Obligations.AddGivesSumModuloTwoPow128 : Prop :=
  (∀ c : Command, decode { c with op := 0x12#8 } = .ok (.add c.a c.b)) ∧
  ∀ (a b : U128) (s : State),
    ∃ t, exec (.add a b) s = .next t ∧ Completed s t ∧
      ∃ r : U128, t.lrsp = { Response.zero with r := r } ∧ r.val = (a.val + b.val) % 2 ^ 128

/-- SUB (40_u128.md R83): op 0x13 decodes to it; the result is `a - b` modulo `2^128`, with status `OK` and
every other field zero, also when it wraps. -/
def Obligations.SubGivesDifferenceModuloTwoPow128 : Prop :=
  (∀ c : Command, decode { c with op := 0x13#8 } = .ok (.sub c.a c.b)) ∧
  ∀ (a b : U128) (s : State),
    ∃ t, exec (.sub a b) s = .next t ∧ Completed s t ∧
      ∃ r : U128, t.lrsp = { Response.zero with r := r } ∧
        r.val = (a.val + 2 ^ 128 - b.val) % 2 ^ 128

/-- INC (40_u128.md R84): op 0x14 decodes to it; the result is `a + 1` modulo `2^128`, and it is zero
exactly when `a` is `MAX_U128`. -/
def Obligations.IncGivesSuccessorModuloTwoPow128 : Prop :=
  (∀ c : Command, decode { c with op := 0x14#8 } = .ok (.inc c.a)) ∧
  ∀ (a : U128) (s : State),
    ∃ t, exec (.inc a) s = .next t ∧ Completed s t ∧
      ∃ r : U128, t.lrsp = { Response.zero with r := r } ∧ r.val = (a.val + 1) % 2 ^ 128 ∧
        (r = U128.zero ↔ a = U128.max)

/-- DEC (40_u128.md R85): op 0x15 decodes to it; the result is `a - 1` modulo `2^128`, and it is `MAX_U128`
exactly when `a` is zero. -/
def Obligations.DecGivesPredecessorModuloTwoPow128 : Prop :=
  (∀ c : Command, decode { c with op := 0x15#8 } = .ok (.dec c.a)) ∧
  ∀ (a : U128) (s : State),
    ∃ t, exec (.dec a) s = .next t ∧ Completed s t ∧
      ∃ r : U128, t.lrsp = { Response.zero with r := r } ∧
        r.val = (a.val + (2 ^ 128 - 1)) % 2 ^ 128 ∧ (r = U128.max ↔ a = U128.zero)

/-- CMP (40_u128.md R86): op 0x16 decodes to it; `cmp` says how the values compare, unsigned, and every
other field is zero. -/
def Obligations.CmpOrdersByUnsignedValue : Prop :=
  (∀ c : Command, decode { c with op := 0x16#8 } = .ok (.cmp c.a c.b)) ∧
  ∀ (a b : U128) (s : State),
    ∃ t, exec (.cmp a b) s = .next t ∧ Completed s t ∧
      ∃ x : Comparison, t.lrsp = { Response.zero with cmp := x } ∧
        (x = .less ↔ a.val < b.val) ∧ (x = .equal ↔ a = b) ∧ (x = .greater ↔ b.val < a.val)

/-- Word addition with carry (40_u128.md R74): the sum and the carry are the remainder and quotient of the
exact sum by `2^64`; the comparison form agrees everywhere but at the one corner; without carry in, both
comparisons are exact; and the unit adds its low words without carry in. -/
def Obligations.AddWithCarryIsByValue : Prop :=
  (∀ (a b : Word64) (c : Bool),
    (add64 a b c).1.toNat = (a.toNat + b.toNat + c.toNat) % 2 ^ 64 ∧
    (add64 a b c).2.toNat = (a.toNat + b.toNat + c.toNat) / 2 ^ 64 ∧
    (if a = BitVec.allOnes 64 ∧ b = BitVec.allOnes 64 ∧ c = true then
      (add64 a b c).2 = true ∧ (add64 a b c).1 = BitVec.allOnes 64
     else ((add64 a b c).2 = true ↔ (add64 a b c).1 < a ∨ (add64 a b c).1 < b))) ∧
  (∀ a b : Word64, ((add64 a b false).2 = true ↔ (add64 a b false).1 < a) ∧
    ((add64 a b false).2 = true ↔ (add64 a b false).1 < b)) ∧
  ∀ x y : U128, u128Add x y =
    ⟨(add64 x.hi y.hi (add64 x.lo y.lo false).2).1, (add64 x.lo y.lo false).1⟩

/-- Word subtraction with borrow (40_u128.md R75): the difference is modulo `2^64` and the borrow is `a < b
+ c`; the comparison form agrees everywhere but at the one corner; without borrow in it is exact; and the
unit subtracts its low words without borrow in. -/
def Obligations.SubWithBorrowIsByValue : Prop :=
  (∀ (a b : Word64) (c : Bool),
    (sub64 a b c).1.toNat = (a.toNat + 2 ^ 65 - b.toNat - c.toNat) % 2 ^ 64 ∧
    ((sub64 a b c).2 = true ↔ a.toNat < b.toNat + c.toNat) ∧
    (if b = BitVec.allOnes 64 ∧ c = true then (sub64 a b c).2 = true ∧ (sub64 a b c).1 = a
     else ((sub64 a b c).2 = true ↔ a < (sub64 a b c).1))) ∧
  (∀ a b : Word64, ((sub64 a b false).2 = true ↔ a < (sub64 a b false).1) ∧
    ((sub64 a b false).2 = true ↔ a < b)) ∧
  ∀ x y : U128, u128Sub x y =
    ⟨(sub64 x.hi y.hi (sub64 x.lo y.lo false).2).1, (sub64 x.lo y.lo false).1⟩

/-- The byte conversions are inverse (40_u128.md R72, R73): the conversion from sixteen bytes keeps the
value, that to bytes is `bytes_16` of the value, and each undoes the other. -/
def Obligations.ByteConversionsAreInverse : Prop :=
  (∀ s : List Byte, s.length = 16 →
    (u128FromBytes s).hi.toNat = be (s.take 8) ∧ (u128FromBytes s).lo.toNat = be (s.drop 8) ∧
      (u128FromBytes s).val = be s ∧ u128ToBytes (u128FromBytes s) = s) ∧
  ∀ x : U128,
    (u128ToBytes x).length = 16 ∧ u128ToBytes x = bytesOf 16 x.val ∧ u128FromBytes (u128ToBytes x) = x ∧
      ∀ i, i < 8 → (u128ToBytes x)[i]? = some (x.hi.extractLsb' (56 - 8 * i) 8) ∧
        (u128ToBytes x)[8 + i]? = some (x.lo.extractLsb' (56 - 8 * i) 8)

/-- Four of the laws of the U128 unit (40_u128.md section 6; the spec marks two of them its own inference):
SUB undoes ADD, DEC and INC undo each other, the comparison is a total order, and the two wraparound tests
are exact. -/
def Obligations.U128LawsHold : Prop :=
  (∀ x y : U128, u128Sub (u128Add x y) y = x) ∧
  (∀ x : U128, u128Sub (u128Add x .one) .one = x ∧ u128Add (u128Sub x .one) .one = x) ∧
  (∀ x y : U128, (u128Compare x y = .equal ↔ x = y) ∧
    (u128Compare x y = .less ↔ u128Compare y x = .greater)) ∧
  (∀ x y z : U128, u128Compare x y = .less → u128Compare y z = .less → u128Compare x z = .less) ∧
  ∀ x : U128, (u128Compare (u128Add x .one) .zero = .equal ↔ x = U128.max) ∧
    (u128Compare (u128Sub x .one) .max = .equal ↔ x = U128.zero)

/-! ## The B62 unit -/

/-- B62ENC (41_base62.md section 5): op 0x20 decodes to it; a value that fits gives the string of `wout`
valid characters with that value, zero in the lanes above; a length above `BUFLEN` gives `InvalidLength`,
and otherwise a value that does not fit `EncodingOverflow`. That the decoder clears the lanes at or above
`len`, and what a count above 63 does, are the model's choices (log 15). -/
def Obligations.B62EncWritesTheNumeralOfTheValue : Prop :=
  (∀ c : Command, decode { c with op := 0x20#8 } = .ok (.b62Enc c.len.toNat c.wout.toNat (keepLanes c.len.toNat c.data))) ∧
  (∀ (len wout : Nat) (data : Lanes) (s : State), len ≤ BUFLEN → wout ≤ BUFLEN →
    be (data.toList.take len) < 62 ^ wout →
    ∃ t, exec (.b62Enc len wout data) s = .next t ∧ Completed s t ∧
      ∃ v : Lanes, t.lrsp = { Response.zero with rlen := BitVec.ofNat 6 wout, rdata := v } ∧
        AllCharacters (v.toList.take wout) ∧
        stringValue (v.toList.take wout) = be (data.toList.take len) ∧
        ∀ (i : Nat) (h : i < BUFLEN), wout ≤ i → v[i] = 0#8) ∧
  (∀ (len wout : Nat) (data : Lanes) (s : State), BUFLEN < len ∨ BUFLEN < wout →
    ∃ t, exec (.b62Enc len wout data) s = .next t ∧ Completed s t ∧
      t.lrsp = { Response.zero with status := .invalidLength }) ∧
  (∀ (len wout : Nat) (data : Lanes) (s : State), len ≤ BUFLEN → wout ≤ BUFLEN →
    62 ^ wout ≤ be (data.toList.take len) →
    ∃ t, exec (.b62Enc len wout data) s = .next t ∧ Completed s t ∧
      t.lrsp = { Response.zero with status := .encodingOverflow })

/-- B62DEC (41_base62.md section 5): op 0x21 decodes to it; a string of valid characters whose value fits
gives the `wout` bytes with that value, zero in the lanes above; the errors are tested in the order length,
character, overflow, and lanes at and above `len` are not looked at. That the decoder clears the lanes at or
above `len`, and what a count above 63 does, are the model's choices (log 15). -/
def Obligations.B62DecWritesTheBytesOfTheValue : Prop :=
  (∀ c : Command, decode { c with op := 0x21#8 } = .ok (.b62Dec c.len.toNat c.wout.toNat (keepLanes c.len.toNat c.data))) ∧
  (∀ (len wout : Nat) (data : Lanes) (s : State), len ≤ BUFLEN → wout ≤ BUFLEN →
    AllCharacters (data.toList.take len) → stringValue (data.toList.take len) < 256 ^ wout →
    ∃ t, exec (.b62Dec len wout data) s = .next t ∧ Completed s t ∧
      ∃ v : Lanes, t.lrsp = { Response.zero with rlen := BitVec.ofNat 6 wout, rdata := v } ∧
        be (v.toList.take wout) = stringValue (data.toList.take len) ∧
        ∀ (i : Nat) (h : i < BUFLEN), wout ≤ i → v[i] = 0#8) ∧
  (∀ (len wout : Nat) (data : Lanes) (s : State), BUFLEN < len ∨ BUFLEN < wout →
    ∃ t, exec (.b62Dec len wout data) s = .next t ∧ Completed s t ∧
      t.lrsp = { Response.zero with status := .invalidLength }) ∧
  (∀ (len wout : Nat) (data : Lanes) (s : State), len ≤ BUFLEN → wout ≤ BUFLEN →
    ¬ AllCharacters (data.toList.take len) →
    ∃ t, exec (.b62Dec len wout data) s = .next t ∧ Completed s t ∧
      t.lrsp = { Response.zero with status := .invalidCharacter }) ∧
  (∀ (len wout : Nat) (data : Lanes) (s : State), len ≤ BUFLEN → wout ≤ BUFLEN →
    AllCharacters (data.toList.take len) → 256 ^ wout ≤ stringValue (data.toList.take len) →
    ∃ t, exec (.b62Dec len wout data) s = .next t ∧ Completed s t ∧
      t.lrsp = { Response.zero with status := .decodingOverflow })

/-- The alphabet (41_base62.md section 1; the codes are ASCII's, which the spec takes from general
knowledge, log 9): the digit values of the three character ranges are 0 to 61, every other lane value is
invalid, there are 194 of those, and the two mappings are inverse. -/
def Obligations.AlphabetMappingsAreInverse : Prop :=
  (∀ c : Byte, val62 c =
    if 0x30#8 ≤ c ∧ c ≤ 0x39#8 then some (c.toNat - 0x30)
    else if 0x41#8 ≤ c ∧ c ≤ 0x5A#8 then some (c.toNat - 0x41 + 10)
    else if 0x61#8 ≤ c ∧ c ≤ 0x7A#8 then some (c.toNat - 0x61 + 36)
    else none) ∧
  ((List.range 256).filter fun n => (val62 (BitVec.ofNat 8 n)).isNone).length = 194 ∧
  (∀ v, v < 62 → val62 (sym62 v) = some v) ∧
  (∀ (c : Byte) (v : Nat), val62 c = some v → v < 62 ∧ sym62 v = c) ∧
  sym62 0 = 0x30#8

/-- One pass of the long division (41_base62.md section 2, the spec's remark on its algorithm): of a
dividend of digits below the base it gives the quotient by the divisor, as digits below the base with no
leading zero digit, and the remainder. -/
def Obligations.LongDivisionPassDivides : Prop :=
  ∀ (base divisor : Nat) (ds : List Nat), 0 < divisor → (∀ d ∈ ds, d < base) →
    valueOfDigits base (dividePass base divisor ds).1 = valueOfDigits base ds / divisor ∧
    (dividePass base divisor ds).2 = valueOfDigits base ds % divisor ∧
    (∀ q ∈ (dividePass base divisor ds).1, q < base) ∧
    (dividePass base divisor ds).1.head? ≠ some 0

/-- The encoder's repeated long division is the encoding by value (41_base62.md section 2, an inference the
spec marks as its own; log 8). -/
def Obligations.EncodeAlgorithmEqualsEncodeByValue : Prop :=
  ∀ (s : List Byte) (W : Nat), b62EncodeAlg s W = b62Encode s W

/-- The decoder's repeated long division is the decoding by value (41_base62.md section 3, an inference the
spec marks as its own; log 8). -/
def Obligations.DecodeAlgorithmEqualsDecodeByValue : Prop :=
  ∀ (u : List Byte) (N : Nat), b62DecodeAlg u N = b62Decode u N

/-- The two directions are inverse (41_base62.md section 4, in the terms the spec infers), and twenty bytes
always fit 27 characters. -/
def Obligations.B62DirectionsAreInverse : Prop :=
  (∀ (s t : List Byte) (W : Nat), b62Encode s W = .ok t → b62Decode t s.length = .ok s) ∧
  (∀ (u s : List Byte) (N : Nat), b62Decode u N = .ok s → b62Encode s u.length = .ok u) ∧
  (∀ s : List Byte, s.length = 20 →
    ∃ t, b62Encode s 27 = .ok t ∧ t.length = 27 ∧ b62Decode t 20 = .ok s)

/-- Order (41_base62.md section 4, an inference the spec marks as its own): on strings of valid characters
of one length the order by codes is the order of the values, so on byte sequences of one length, and
encoding keeps it. -/
def Obligations.EncodingKeepsLexicographicOrder : Prop :=
  (∀ u v : List Byte, u.length = v.length → AllCharacters u → AllCharacters v →
    (u < v ↔ stringValue u < stringValue v)) ∧
  (∀ s t : List Byte, s.length = t.length → (s < t ↔ be s < be t)) ∧
  (∀ (s t u v : List Byte) (W : Nat), s.length = t.length → b62Encode s W = .ok u →
    b62Encode t W = .ok v → (s < t ↔ u < v))

/-! ## The KSC unit -/

/-- KCAT (42_ksuid.md R120): op 0x30 decodes to it; it gives twenty bytes, the timestamp in the first four
and the payload in the rest, big-endian, with the 160-bit value, zero in every lane above. -/
def Obligations.KCatWritesTheWireForm : Prop :=
  (∀ c : Command, decode { c with op := 0x30#8 } = .ok (.kCat c.ts c.a)) ∧
  ∀ (ts : Timestamp) (a : U128) (s : State),
    ∃ t, exec (.kCat ts a) s = .next t ∧ Completed s t ∧
      ∃ v : Lanes, t.lrsp = { Response.zero with rlen := 20#6, rdata := v } ∧
        be (v.toList.take 4) = ts.toNat ∧ be ((v.toList.drop 4).take 16) = a.val ∧
        be (v.toList.take 20) = ksuidValue ts a ∧
        ∀ (i : Nat) (h : i < BUFLEN), 20 ≤ i → v[i] = 0#8

/-- KSPLIT (42_ksuid.md section 3): op 0x31 decodes to it; of twenty bytes it gives the timestamp in the
first four and the payload in the rest; of any other length, `InvalidLength`. That the decoder clears the
lanes at or above `len`, and what a count above 63 does, are the model's choices (log 15). -/
def Obligations.KSplitReadsTheWireForm : Prop :=
  (∀ c : Command, decode { c with op := 0x31#8 } = .ok (.kSplit c.len.toNat (keepLanes c.len.toNat c.data))) ∧
  (∀ (len : Nat) (data : Lanes) (s : State), len = 20 →
    ∃ t, exec (.kSplit len data) s = .next t ∧ Completed s t ∧
      ∃ (ts : Timestamp) (p : U128), t.lrsp = { Response.zero with rts := ts, r := p } ∧
        ts.toNat = be (data.toList.take 4) ∧ p.val = be ((data.toList.drop 4).take 16) ∧
        ksuidValue ts p = be (data.toList.take 20)) ∧
  (∀ (len : Nat) (data : Lanes) (s : State), len ≠ 20 →
    ∃ t, exec (.kSplit len data) s = .next t ∧ Completed s t ∧
      t.lrsp = { Response.zero with status := .invalidLength })

/-- KGEN (42_ksuid.md R122): op 0x32 decodes to it; it always ends `OK`, with the 27 valid characters whose
value is the 160-bit value, zero in every lane above. -/
def Obligations.KGenWritesTheTextForm : Prop :=
  (∀ c : Command, decode { c with op := 0x32#8 } = .ok (.kGen c.ts c.a)) ∧
  ∀ (ts : Timestamp) (a : U128) (s : State),
    ∃ t, exec (.kGen ts a) s = .next t ∧ Completed s t ∧
      ∃ v : Lanes, t.lrsp = { Response.zero with rlen := 27#6, rdata := v } ∧
        AllCharacters (v.toList.take 27) ∧ stringValue (v.toList.take 27) = ksuidValue ts a ∧
        ∀ (i : Nat) (h : i < BUFLEN), 27 ≤ i → v[i] = 0#8

/-- KPARSE (42_ksuid.md section 3): op 0x33 decodes to it; of a valid KSUID string it gives the timestamp
and payload with that value; the errors are tested in the order length, character, overflow. That the
decoder clears the lanes at or above `len`, and what a count above 63 does, are the model's choices (log
15). -/
def Obligations.KParseReadsTheTextForm : Prop :=
  (∀ c : Command, decode { c with op := 0x33#8 } = .ok (.kParse c.len.toNat (keepLanes c.len.toNat c.data))) ∧
  (∀ (len : Nat) (data : Lanes) (s : State), len = 27 → ValidKsuidString (data.toList.take 27) →
    ∃ t, exec (.kParse len data) s = .next t ∧ Completed s t ∧
      ∃ (ts : Timestamp) (p : U128), t.lrsp = { Response.zero with rts := ts, r := p } ∧
        ksuidValue ts p = stringValue (data.toList.take 27)) ∧
  (∀ (len : Nat) (data : Lanes) (s : State), len ≠ 27 →
    ∃ t, exec (.kParse len data) s = .next t ∧ Completed s t ∧
      t.lrsp = { Response.zero with status := .invalidLength }) ∧
  (∀ (len : Nat) (data : Lanes) (s : State), len = 27 → ¬ AllCharacters (data.toList.take 27) →
    ∃ t, exec (.kParse len data) s = .next t ∧ Completed s t ∧
      t.lrsp = { Response.zero with status := .invalidCharacter }) ∧
  (∀ (len : Nat) (data : Lanes) (s : State), len = 27 → AllCharacters (data.toList.take 27) →
    2 ^ 160 ≤ stringValue (data.toList.take 27) →
    ∃ t, exec (.kParse len data) s = .next t ∧ Completed s t ∧
      t.lrsp = { Response.zero with status := .decodingOverflow })

/-- KNEXT (42_ksuid.md section 3, by value as the spec infers in section 2): op 0x34 decodes to it; of a
valid KSUID string it gives the string whose value is one more modulo `2^160`, and no parts; the errors are
KPARSE's, in its order. That the decoder clears the lanes at or above `len`, and what a count above 63 does,
are the model's choices (log 15). -/
def Obligations.KNextWritesTheSuccessor : Prop :=
  (∀ c : Command, decode { c with op := 0x34#8 } = .ok (.kNext c.len.toNat (keepLanes c.len.toNat c.data))) ∧
  (∀ (len : Nat) (data : Lanes) (s : State), len = 27 → ValidKsuidString (data.toList.take 27) →
    ∃ t, exec (.kNext len data) s = .next t ∧ Completed s t ∧
      ∃ v : Lanes, t.lrsp = { Response.zero with rlen := 27#6, rdata := v } ∧
        AllCharacters (v.toList.take 27) ∧
        stringValue (v.toList.take 27) = (stringValue (data.toList.take 27) + 1) % 2 ^ 160 ∧
        ∀ (i : Nat) (h : i < BUFLEN), 27 ≤ i → v[i] = 0#8) ∧
  (∀ (len : Nat) (data : Lanes) (s : State), len ≠ 27 →
    ∃ t, exec (.kNext len data) s = .next t ∧ Completed s t ∧
      t.lrsp = { Response.zero with status := .invalidLength }) ∧
  (∀ (len : Nat) (data : Lanes) (s : State), len = 27 → ¬ AllCharacters (data.toList.take 27) →
    ∃ t, exec (.kNext len data) s = .next t ∧ Completed s t ∧
      t.lrsp = { Response.zero with status := .invalidCharacter }) ∧
  (∀ (len : Nat) (data : Lanes) (s : State), len = 27 → AllCharacters (data.toList.take 27) →
    2 ^ 160 ≤ stringValue (data.toList.take 27) →
    ∃ t, exec (.kNext len data) s = .next t ∧ Completed s t ∧
      t.lrsp = { Response.zero with status := .decodingOverflow })

/-- KPREV (42_ksuid.md section 3, by value as the spec infers in section 2): op 0x35 decodes to it; of a
valid KSUID string it gives the string whose value is one less modulo `2^160`, and no parts; the errors are
KPARSE's, in its order. That the decoder clears the lanes at or above `len`, and what a count above 63 does,
are the model's choices (log 15). -/
def Obligations.KPrevWritesThePredecessor : Prop :=
  (∀ c : Command, decode { c with op := 0x35#8 } = .ok (.kPrev c.len.toNat (keepLanes c.len.toNat c.data))) ∧
  (∀ (len : Nat) (data : Lanes) (s : State), len = 27 → ValidKsuidString (data.toList.take 27) →
    ∃ t, exec (.kPrev len data) s = .next t ∧ Completed s t ∧
      ∃ v : Lanes, t.lrsp = { Response.zero with rlen := 27#6, rdata := v } ∧
        AllCharacters (v.toList.take 27) ∧
        stringValue (v.toList.take 27) =
          (stringValue (data.toList.take 27) + (2 ^ 160 - 1)) % 2 ^ 160 ∧
        ∀ (i : Nat) (h : i < BUFLEN), 27 ≤ i → v[i] = 0#8) ∧
  (∀ (len : Nat) (data : Lanes) (s : State), len ≠ 27 →
    ∃ t, exec (.kPrev len data) s = .next t ∧ Completed s t ∧
      t.lrsp = { Response.zero with status := .invalidLength }) ∧
  (∀ (len : Nat) (data : Lanes) (s : State), len = 27 → ¬ AllCharacters (data.toList.take 27) →
    ∃ t, exec (.kPrev len data) s = .next t ∧ Completed s t ∧
      t.lrsp = { Response.zero with status := .invalidCharacter }) ∧
  (∀ (len : Nat) (data : Lanes) (s : State), len = 27 → AllCharacters (data.toList.take 27) →
    2 ^ 160 ≤ stringValue (data.toList.take 27) →
    ∃ t, exec (.kPrev len data) s = .next t ∧ Completed s t ∧
      t.lrsp = { Response.zero with status := .decodingOverflow })

/-- Composition and splitting are inverse, and the wire form has the 160-bit value (42_ksuid.md R111, R112).
-/
def Obligations.WireFormConversionsAreInverse : Prop :=
  (∀ (ts : Timestamp) (p : U128),
    ksuidCat ts p = bytesOf 4 ts.toNat ++ u128ToBytes p ∧ be (ksuidCat ts p) = ksuidValue ts p ∧
      ksuidSplit (ksuidCat ts p) = (ts, p) ∧
      (ksuidCat ts p).take 4 = [ts.extractLsb' 24 8, ts.extractLsb' 16 8, ts.extractLsb' 8 8,
        ts.extractLsb' 0 8]) ∧
  ∀ w : List Byte, w.length = 20 →
    (ksuidSplit w).1.toNat = be (w.take 4) ∧ (ksuidSplit w).2 = u128FromBytes (w.drop 4) ∧
      ksuidCat (ksuidSplit w).1 (ksuidSplit w).2 = w

/-- Stepping is on the pair (42_ksuid.md section 2): the payload steps modulo `2^128`, and the timestamp
steps modulo `2^32` exactly when the payload wraps. -/
def Obligations.SteppingCarriesIntoTheTimestamp : Prop :=
  (∀ (ts : Timestamp) (p : U128),
    (stepUp (ts, p)).2.val = (p.val + 1) % 2 ^ 128 ∧
    (stepUp (ts, p)).1.toNat = if p = U128.max then (ts.toNat + 1) % 2 ^ 32 else ts.toNat) ∧
  ∀ (ts : Timestamp) (p : U128),
    (stepDown (ts, p)).2.val = (p.val + (2 ^ 128 - 1)) % 2 ^ 128 ∧
    (stepDown (ts, p)).1.toNat = if p = U128.zero then (ts.toNat + (2 ^ 32 - 1)) % 2 ^ 32 else ts.toNat

/-- The ordering guarantee (42_ksuid.md section 4, in the terms the spec infers): text forms, and wire
forms, compare as the 160-bit values do, which is by timestamp and then by payload. -/
def Obligations.KsuidsSortAsTheirTexts : Prop :=
  ∀ (ts ts' : Timestamp) (p p' : U128) (t t' : List Byte),
    ksuidGenerate ts p = .ok t → ksuidGenerate ts' p' = .ok t' →
    (t < t' ↔ ksuidValue ts p < ksuidValue ts' p') ∧
    (ksuidCat ts p < ksuidCat ts' p' ↔ ksuidValue ts p < ksuidValue ts' p') ∧
    (ksuidValue ts p < ksuidValue ts' p' ↔
      ts < ts' ∨ (ts = ts' ∧ u128Compare p p' = .less))

/-- The stepping laws (42_ksuid.md section 4, in the terms the spec infers): on every valid KSUID string
both directions end well, undo each other and give valid strings; the successor is greater but at the
maximum, whose successor is the minimum, and the predecessor is less but at the minimum. -/
def Obligations.NextAndPrevUndoEachOther : Prop :=
  ∀ u : List Byte, ValidKsuidString u →
    ∃ n p : List Byte, ksuidNext u = .ok n ∧ ksuidPrev u = .ok p ∧
      ksuidPrev n = .ok u ∧ ksuidNext p = .ok u ∧ ValidKsuidString n ∧ ValidKsuidString p ∧
      (stringValue u ≠ 2 ^ 160 - 1 → u < n) ∧
      (stringValue u = 2 ^ 160 - 1 → n = List.replicate 27 0x30#8) ∧
      (stringValue u ≠ 0 → p < u)

/-- The bijection (42_ksuid.md section 4, in the terms the spec infers): every KSUID has a valid text form,
which parses back to it, and every valid KSUID string parses to a KSUID whose text form it is. -/
def Obligations.TextFormIsABijection : Prop :=
  (∀ (ts : Timestamp) (p : U128), ∃ u, ksuidGenerate ts p = .ok u ∧ ValidKsuidString u ∧
    ksuidParse u = .ok (ts, p)) ∧
  (∀ u : List Byte, ValidKsuidString u → ∃ (ts : Timestamp) (p : U128),
    ksuidParse u = .ok (ts, p) ∧ ksuidGenerate ts p = .ok u) ∧
  (∀ u : List Byte, ¬ ValidKsuidString u → ∀ (ts : Timestamp) (p : U128), ksuidGenerate ts p ≠ .ok u)

/-- Boundary values (42_ksuid.md section 4): the text forms of the least and the greatest KSUID and of the
two around `2^128`, lane by lane. -/
def Obligations.BoundaryTextForms : Prop :=
  ∀ s : State,
    (∃ t, exec (.kGen 0#32 .zero) s = .next t ∧ bitsOfLanes t.lrsp.rdata =
      0x3030303030303030303030303030303030303030303030303030300000000000#256) ∧
    (∃ t, exec (.kGen 0xFFFFFFFF#32 .max) s = .next t ∧ bitsOfLanes t.lrsp.rdata =
      0x6157674550546c31746d65626673517a46503462787767793830560000000000#256) ∧
    (∃ t, exec (.kGen 1#32 .zero) s = .next t ∧ bitsOfLanes t.lrsp.rdata =
      0x3030303030376e343244474d3554666c6b396e386d7437466863380000000000#256) ∧
    (∃ t, exec (.kGen 0#32 .max) s = .next t ∧ bitsOfLanes t.lrsp.rdata =
      0x3030303030376e343244474d3554666c6b396e386d7437466863370000000000#256)

/-! ## Words, decoding, encoding -/

/-- The command word (30_encoding.md R50): every field stands at its bits, and the record and the word
determine each other. -/
def Obligations.CommandWordHoldsEveryField : Prop :=
  (∀ c : Command,
    (wordOfCommand c).extractLsb' 556 8 = c.op ∧
    (wordOfCommand c).extractLsb' 492 64 = c.a.hi ∧
    (wordOfCommand c).extractLsb' 428 64 = c.a.lo ∧
    (wordOfCommand c).extractLsb' 364 64 = c.b.hi ∧
    (wordOfCommand c).extractLsb' 300 64 = c.b.lo ∧
    (wordOfCommand c).extractLsb' 268 32 = c.ts ∧
    (wordOfCommand c).extractLsb' 262 6 = c.len ∧
    (wordOfCommand c).extractLsb' 256 6 = c.wout ∧
    ∀ (i : Nat) (h : i < BUFLEN), (wordOfCommand c).extractLsb' (248 - 8 * i) 8 = c.data[i]) ∧
  (∀ c : Command, commandOfWord (wordOfCommand c) = c) ∧
  (∀ w : BitVec 564, wordOfCommand (commandOfWord w) = w)

/-- The response word (30_encoding.md R51): every field stands at its bits, `status` and `cmp` as their
codes, of which the statement gives each. -/
def Obligations.ResponseWordHoldsEveryField : Prop :=
  (∀ r : Response,
    (wordOfResponse r).extractLsb' 424 4 = statusCode r.status ∧
    (wordOfResponse r).extractLsb' 422 2 = comparisonCode r.cmp ∧
    (wordOfResponse r).extractLsb' 358 64 = r.r.hi ∧
    (wordOfResponse r).extractLsb' 294 64 = r.r.lo ∧
    (wordOfResponse r).extractLsb' 262 32 = r.rts ∧
    (wordOfResponse r).extractLsb' 256 6 = r.rlen ∧
    ∀ (i : Nat) (h : i < BUFLEN), (wordOfResponse r).extractLsb' (248 - 8 * i) 8 = r.rdata[i]) ∧
  (statusCode .ok = 0#4 ∧ statusCode .invalidLength = 1#4 ∧ statusCode .invalidCharacter = 2#4 ∧
    statusCode .encodingOverflow = 3#4 ∧ statusCode .decodingOverflow = 4#4 ∧
    statusCode .illegalCommand = 5#4) ∧
  (comparisonCode .equal = 0b00#2 ∧ comparisonCode .less = 0b01#2 ∧ comparisonCode .greater = 0b10#2) ∧
  ∀ r r' : Response, wordOfResponse r = wordOfResponse r' → r = r'

/-- Decode and encode agree on every well-formed instruction, and the decoder gives only well-formed ones
(30_encoding.md sections 1, 3 and 6). That a well-formed instruction has zero in the lanes at or above
`len`, and that the decoder clears them, is the model's choice (log 15). -/
def Obligations.DecodeUndoesEncode : Prop :=
  (∀ i : Instr, wellFormed i = true → decodeWord (encode i) = .ok i) ∧
  (∀ (w : BitVec 564) (i : Instr), decodeWord w = .ok i → wellFormed i = true)

/-- The encoding is canonical (30_encoding.md section 6): of every instruction, whatever its lanes hold, the
encoded record has every unread field zero and every lane at or above `len` zero, the word is that record's,
and of a decoded word it agrees with the word's command on `op` and on every field read. That an instruction
may hold a count above 63, and what its lanes are, is the model's choice (log 15). -/
def Obligations.EncodingIsCanonical : Prop :=
  (∀ (i : Instr) (f : Operand), f ∉ fieldsRead i.opcode → operandIsZero (commandOf i) f) ∧
  (∀ (i : Instr) (j : Nat) (h : j < BUFLEN), (commandOf i).len.toNat ≤ j → (commandOf i).data[j] = 0#8) ∧
  (∀ i : Instr, commandOfWord (encode i) = commandOf i) ∧
  ∀ (w : BitVec 564) (i : Instr), decodeWord w = .ok i → AgreeOnRead (commandOf i) (commandOfWord w)

/-- The opcode map and its masks (30_encoding.md section 4): the fifteen values of `op` in the table's
order, and a command word is a row's command exactly when its bits under the mask `0xFF * 2^556` are the
row's `op * 2^556`. -/
def Obligations.OpcodeRowsMatchUnderTheirMask : Prop :=
  (allOpcodes.map fun o => (opcodeValue o).toNat) =
    [0x10, 0x11, 0x12, 0x13, 0x14, 0x15, 0x16, 0x20, 0x21, 0x30, 0x31, 0x32, 0x33, 0x34, 0x35] ∧
  ∀ (w : BitVec 564) (o : Opcode),
    (∃ i, decodeWord w = .ok i ∧ i.opcode = o) ↔
      w &&& (0xFF#564 <<< 556) = (opcodeValue o).zeroExtend 564 <<< 556

/-- Illegal encodings (30_encoding.md R57): the decoder rejects exactly the 241 values of `op` outside the
map, whatever the other fields hold, and the run of such a command ends with `IllegalCommand` and every
other field zero. -/
def Obligations.IllegalOpcodesAreAnswered : Prop :=
  (∀ c : Command, decode c = .error (.illegalCommand c.op) ↔
    c.op.toNat ≤ 0x0F ∨ (0x17 ≤ c.op.toNat ∧ c.op.toNat ≤ 0x1F) ∨
      (0x22 ≤ c.op.toNat ∧ c.op.toNat ≤ 0x2F) ∨ 0x36 ≤ c.op.toNat) ∧
  ((List.range 256).filter fun n => (opcodeOf (BitVec.ofNat 8 n)).isNone).length = 241 ∧
  (∀ (c : Command) (s : State), opcodeOf c.op = none →
    ∃ t, runCommand c s = .next t ∧ Completed s t ∧
      t.lrsp = { Response.zero with status := .illegalCommand })

/-- Words written out from the encoding (30_encoding.md sections 1 and 4) decode to their commands: one of
each unit, from the vectors U15, B01 and K01 of the spec. -/
def Obligations.WrittenOutWordsDecode : Prop :=
  decodeTableWord 568
      0x120123456789abcdeffedcba987654321011111111111111112222222222222222000000000000000000000000000000000000000000000000000000000000000000000000000
    = some (.add ⟨0x0123456789ABCDEF#64, 0xFEDCBA9876543210#64⟩ ⟨0x1111111111111111#64, 0x2222222222222222#64⟩) ∧
  decodeTableWord 568
      0x200000000000000000000000000000000000000000000000000000000000000000000000000830100000000000000000000000000000000000000000000000000000000000000
    = some (.b62Enc 2 3 (lanesOfList [0x01#8, 0x00#8])) ∧
  decodeTableWord 568
      0x30b5a1cbd5a5f3adf01a2b3c4d5e6f7081000000000000000000000000000000000669f7ef0000000000000000000000000000000000000000000000000000000000000000000
    = some (.kCat 0x0669F7EF#32 ⟨0xB5A1CBD5A5F3ADF0#64, 0x1A2B3C4D5E6F7081#64⟩)

/-! ## Responses in general -/

/-- A command's response depends only on `op` and on the fields its operation reads, of `data` only on the
lanes below `len` (10_state.md R26). -/
def Obligations.ResponseDependsOnlyOnFieldsRead : Prop :=
  ∀ c d : Command, AgreeOnRead c d → respond c = respond d

/-- Every field a command does not write is zero, every lane at or above `rlen` is zero, `rlen` is at most
`BUFLEN`, and on an error every field but the status is zero (10_state.md R20). -/
def Obligations.UnwrittenResultFieldsAreZero : Prop :=
  (∀ (c : Command) (o : Opcode) (f : ResultField), opcodeOf c.op = some o → f ∉ fieldsWritten o →
    resultIsZero (respond c) f) ∧
  (∀ (c : Command) (i : Nat) (h : i < BUFLEN), (respond c).rlen.toNat ≤ i → (respond c).rdata[i] = 0#8) ∧
  (∀ c : Command, (respond c).rlen.toNat ≤ BUFLEN) ∧
  (∀ c : Command, (respond c).status ≠ .ok →
    respond c = { Response.zero with status := (respond c).status })

/-- Which command ends with which status, one status each, the first that is due in the order of priority
(60_exceptions.md sections 1 and 2; the table of the conditions is the spec's own inference). -/
def Obligations.StatusIsTheFirstDue : Prop :=
  ∀ c : Command, (respond c).status = dueStatus c

/-! ## The machine -/

/-- A step in BUSY that finds the computation finished runs the instruction the latched command decodes to,
on the state with the next cycle's ports; a command the decoder rejects is answered (10_state.md section 4).
That a step is an edge and that a cycle says whether the computation has finished are the model's choices
(logs 1, 2). -/
def Obligations.StepRunsTheDecodedInstruction : Prop :=
  (∀ (s : State) (i : Instr), s.phase = .busy → s.cycle.rst = false → s.cycle.settled = true →
    decode s.lcmd = .ok i → wellFormed i = true → step s = exec i s.advance) ∧
  (∀ (s : State) (op : BitVec 8), s.phase = .busy → s.cycle.rst = false → s.cycle.settled = true →
    decode s.lcmd = .error (.illegalCommand op) → step s = raise .illegalCommand s.advance) ∧
  (∀ s : State, s.advance.phase = s.phase ∧ s.advance.lcmd = s.lcmd ∧ s.advance.lrsp = s.lrsp ∧
    s.advance.inputs = s.inputs.tail)

/-- The steps of the core at an edge without reset (10_state.md section 4): accept, a cycle of computing,
complete, retire, and the two in which nothing happens. When a command completes is laid down in the cycles,
the model's choice (logs 1, 2). -/
def Obligations.EdgeMovesFollowThePhase : Prop :=
  ∀ s : State, s.cycle.rst = false →
    (s.phase = .idle → s.cycle.cmdValid = true → ∃ t, step s = .next t ∧ t.phase = .busy ∧
      t.lcmd = s.cycle.cmd ∧ t.inputs = s.inputs.tail) ∧
    (s.phase = .idle → s.cycle.cmdValid = false → step s = .next s.advance) ∧
    (s.phase = .busy → s.cycle.settled = false → ∃ t, step s = .next t ∧ t.phase = .busy ∧
      t.lcmd = s.lcmd ∧ t.lrsp = s.lrsp ∧ t.inputs = s.inputs.tail) ∧
    (s.phase = .busy → s.cycle.settled = true → ∃ t, step s = .next t ∧ t.phase = .done ∧
      t.lcmd = s.lcmd ∧ t.lrsp = respond s.lcmd ∧ t.inputs = s.inputs.tail) ∧
    (s.phase = .done → s.cycle.rspReady = true → ∃ t, step s = .next t ∧ t.phase = .idle ∧
      t.inputs = s.inputs.tail) ∧
    (s.phase = .done → s.cycle.rspReady = false → step s = .next s.advance)

/-- Reset (70_reset_and_hazards.md section 1): while `rst = 1` the core is not ready and accepts no command,
offers no response and none is taken; and the edge takes any phase to IDLE. That the cycle's ports are used
up is the model's choice (log 1). -/
def Obligations.ResetFromAnyPhaseGivesIdle : Prop :=
  ∀ s : State, s.cycle.rst = true →
    s.cmdReady = false ∧ s.rspValid = false ∧ s.acceptedNow = [] ∧ s.takenNow = [] ∧
      ∃ t, step s = .next t ∧ t.phase = .idle ∧ t.inputs = s.inputs.tail

/-- After reset (10_state.md section 8, 70_reset_and_hazards.md section 2): IDLE, ready for a command, no
response; and the first command offered is accepted, and answered at the second edge, the host being quiet
(the model's choice, logs 1, 2). -/
def Obligations.FirstCommandAfterResetIsAnswered : Prop :=
  State.reset.phase = .idle ∧ State.reset.cmdReady = true ∧ State.reset.rspValid = false ∧
  ∀ (c : Command) (ready settled : Bool),
    ∃ t, Host.Core.run Sys2Proof.core 2
        { State.reset with inputs := [⟨false, true, c, ready, settled⟩] } = .next t ∧
      t.phase = .done ∧ t.lrsp = respond c ∧ t.rspPort = some (respond c)

/-- Every step of every state has a next state: the core never stops (10_state.md section 5,
60_exceptions.md section 3). -/
def Obligations.EveryStepHasANextState : Prop :=
  ∀ s : State, ∃ t, step s = .next t

/-- The invariant: a response offered is that of the command held; every step keeps it (10_state.md sections
4 and 5). -/
def Obligations.StepKeepsOfferedResponseRight : Prop :=
  ∀ s t : State, s.Consistent → step s = .next t → t.Consistent

/-- The invariant holds after reset (10_state.md section 8), and of the state that a placed command is run
from, which is the model's choice (log 10). -/
def Obligations.ResetOffersNoWrongResponse : Prop :=
  State.reset.Consistent ∧ ∀ (s : State) (nbits w : Nat), (s.withFetchWord nbits w).Consistent

/-- Every accepted command completes (70_reset_and_hazards.md section 4): from BUSY, with no reset to come,
the core offers the command's response after at least one edge and at most one more than the cycles that are
laid down. The bound comes from the model's quiet host (logs 1, 2). -/
def Obligations.EveryAcceptedCommandCompletes : Prop :=
  ∀ s : State, s.phase = .busy → (∀ e ∈ s.inputs, e.rst = false) →
    ∃ (k : Nat) (t : State), 1 ≤ k ∧ k ≤ s.inputs.length + 1 ∧
      Host.Core.run Sys2Proof.core k s = .next t ∧
      t.phase = .done ∧ t.lcmd = s.lcmd ∧ t.lrsp = respond s.lcmd ∧
      ∀ (j : Nat) (u : State), j < k → Host.Core.run Sys2Proof.core j s = .next u →
        u.phase = .busy ∧ u.lcmd = s.lcmd

/-- The core is stateless between commands (10_state.md section 5): over any number of edges without reset,
the responses taken, then the one still owed, are `Exec` of the command held at the start, if any, and of
the commands accepted, in their order. -/
def Obligations.ResponsesAnswerCommandsInOrder : Prop :=
  ∀ (n : Nat) (s : State), s.Consistent → s.NoReset n →
    s.outstanding ++ (observe n s).1.map respond =
      (observe n s).2.1 ++ (observe n s).2.2.outstanding

/-- A reset only drops the response owed (70_reset_and_hazards.md section 1): over any number of edges, with
resets anywhere, the responses taken, then the one still owed, are in their order some of the responses of
the command held at the start and of the commands accepted, and none besides. -/
def Obligations.ResetOnlyDropsResponses : Prop :=
  ∀ (n : Nat) (s : State), s.Consistent →
    List.Sublist ((observe n s).2.1 ++ (observe n s).2.2.outstanding)
      (s.outstanding ++ (observe n s).1.map respond)

/-- What no port shows is never observed (10_state.md sections 7 and 8): from two states that differ only in
the scratch, the free values and latches not in use, the host accepts and takes the same. -/
def Obligations.HiddenStateIsNeverObserved : Prop :=
  ∀ (n : Nat) (s s' : State), SameVisible s s' →
    (observe n s).1 = (observe n s').1 ∧ (observe n s).2.1 = (observe n s').2.1 ∧
      SameVisible (observe n s).2.2 (observe n s').2.2

/-- A response not taken stays offered, unchanged, for as many cycles as the host likes, whatever it offers
meanwhile (70_reset_and_hazards.md section 3). -/
def Obligations.ResponseStaysUntilTaken : Prop :=
  ∀ (n : Nat) (s : State), s.phase = .done →
    (∀ e ∈ s.inputs.take n, e.rst = false ∧ e.rspReady = false) →
    ∃ t, Host.Core.run Sys2Proof.core n s = .next t ∧ t.phase = .done ∧ t.lrsp = s.lrsp ∧
      t.inputs = s.inputs.drop n ∧ (t.cycle.rst = false → t.rspPort = some s.lrsp)

/-- A command offered while the core is not ready, `cmd_ready = 0`, has no effect (70_reset_and_hazards.md
section 3): the step from BUSY, from DONE, or from any phase with `rst = 1` is the same whatever the command
ports hold, and accepts nothing. -/
def Obligations.CommandOfferedWhileNotReadyHasNoEffect : Prop :=
  ∀ (s : State) (e : Cycle) (es : List Cycle) (valid : Bool) (c : Command),
    ({ s with inputs := e :: es } : State).cmdReady = false →
      ({ s with inputs := { e with cmdValid := valid, cmd := c } :: es } : State).acceptedNow = [] ∧
      step { s with inputs := e :: es } =
        step { s with inputs := { e with cmdValid := valid, cmd := c } :: es }

end
end

