-- ==== Sys2Proof/Laws/Digits.lean ====
section
/-! SUPPORT. Digits and values in a base: the lemmas every claim about bytes and strings rests on. -/

namespace Sys2Proof.Machine

@[simp] theorem valueOfDigits_nil (base : Nat) : valueOfDigits base [] = 0 := rfl

/-- One more digit at the end. -/
theorem valueOfDigits_concat (base : Nat) (ds : List Nat) (d : Nat) :
    valueOfDigits base (ds ++ [d]) = valueOfDigits base ds * base + d := by
  simp [valueOfDigits]

/-- The value of one sequence followed by another. -/
theorem valueOfDigits_append (base : Nat) (xs ys : List Nat) :
    valueOfDigits base (xs ++ ys) = valueOfDigits base xs * base ^ ys.length + valueOfDigits base ys := by
  induction ys using List.reverseRecOn with
  | nil => simp
  | append_singleton ys y ih =>
    rw [← List.append_assoc, valueOfDigits_concat, valueOfDigits_concat, ih]
    simp [Nat.pow_succ]
    ring

/-- The first digit counts most. -/
theorem valueOfDigits_cons (base d : Nat) (ds : List Nat) :
    valueOfDigits base (d :: ds) = d * base ^ ds.length + valueOfDigits base ds := by
  have h := valueOfDigits_append base [d] ds
  simpa [valueOfDigits] using h

/-- A sequence of `n` digits has a value below `base^n`. -/
theorem valueOfDigits_lt {base : Nat} {ds : List Nat} (h : ∀ d ∈ ds, d < base) :
    valueOfDigits base ds < base ^ ds.length := by
  induction ds with
  | nil => simp
  | cons d ds ih =>
    have hd : d < base := h d (by simp)
    have ht := ih fun x hx => h x (by simp [hx])
    rw [valueOfDigits_cons, List.length_cons, Nat.pow_succ]
    calc d * base ^ ds.length + valueOfDigits base ds
        < d * base ^ ds.length + base ^ ds.length := by omega
      _ = (d + 1) * base ^ ds.length := by ring
      _ ≤ base * base ^ ds.length := Nat.mul_le_mul_right _ hd
      _ = base ^ ds.length * base := by ring

@[simp] theorem digitsOfValue_length (base n v : Nat) : (digitsOfValue base n v).length = n := by
  simp [digitsOfValue]

@[simp] theorem digitsOfValue_zero (base v : Nat) : digitsOfValue base 0 v = [] := rfl

/-- The last digit is the remainder, the others are the quotient's. -/
theorem digitsOfValue_succ (base n v : Nat) :
    digitsOfValue base (n + 1) v = digitsOfValue base n (v / base) ++ [v % base] := by
  simp only [digitsOfValue, List.range_succ, List.map_append, List.map_cons, List.map_nil]
  congr 1
  · apply List.map_congr_left
    intro i hi
    have : i < n := by simpa using hi
    have e : n + 1 - 1 - i = (n - 1 - i) + 1 := by omega
    rw [e, Nat.pow_succ, Nat.mul_comm, ← Nat.div_div_eq_div_mul]
  · simp

/-- Every digit is below the base. -/
theorem digitsOfValue_lt {base : Nat} (hb : 0 < base) (n v : Nat) :
    ∀ d ∈ digitsOfValue base n v, d < base := by
  intro d hd
  simp only [digitsOfValue, List.mem_map] at hd
  obtain ⟨i, -, rfl⟩ := hd
  exact Nat.mod_lt _ hb

/-- The value of a value's digits: the value, modulo `base^n`. -/
theorem valueOfDigits_digitsOfValue (base n v : Nat) :
    valueOfDigits base (digitsOfValue base n v) = v % base ^ n := by
  induction n generalizing v with
  | zero => simp [Nat.mod_one]
  | succ n ih =>
    rw [digitsOfValue_succ, valueOfDigits_concat, ih, Nat.pow_succ, Nat.mul_comm (base ^ n),
      Nat.mod_mul]
    ring

/-- The digits of a digit sequence's value: the sequence. -/
theorem digitsOfValue_valueOfDigits {base : Nat} {ds : List Nat} (h : ∀ d ∈ ds, d < base) :
    digitsOfValue base ds.length (valueOfDigits base ds) = ds := by
  induction ds using List.reverseRecOn with
  | nil => simp
  | append_singleton ds d ih =>
    have hd : d < base := h d (by simp)
    have h1 : (valueOfDigits base ds * base + d) / base = valueOfDigits base ds := by
      rw [Nat.mul_comm, Nat.mul_add_div (by omega), Nat.div_eq_of_lt hd, Nat.add_zero]
    have h2 : (valueOfDigits base ds * base + d) % base = d := by
      rw [Nat.mul_comm, Nat.mul_add_mod, Nat.mod_eq_of_lt hd]
    rw [List.length_append, List.length_singleton, digitsOfValue_succ, valueOfDigits_concat, h1, h2,
      ih fun x hx => h x (by simp [hx])]

/-! ## Bytes -/

theorem toNat_lt_256 (s : List Byte) : ∀ d ∈ s.map BitVec.toNat, d < 256 := by
  intro d hd
  obtain ⟨x, -, rfl⟩ := List.mem_map.mp hd
  exact x.isLt

theorem be_lt (s : List Byte) : be s < 256 ^ s.length := by
  simpa [be] using valueOfDigits_lt (toNat_lt_256 s)

theorem be_append (s t : List Byte) : be (s ++ t) = be s * 256 ^ t.length + be t := by
  simp [be, valueOfDigits_append]

@[simp] theorem bytesOf_length (n v : Nat) : (bytesOf n v).length = n := by simp [bytesOf]

/-- The value of a value's bytes: the value, modulo `256^n`. -/
theorem be_bytesOf (n v : Nat) : be (bytesOf n v) = v % 256 ^ n := by
  have : (digitsOfValue 256 n v).map (BitVec.toNat ∘ BitVec.ofNat 8) = digitsOfValue 256 n v := by
    conv_rhs => rw [← List.map_id (digitsOfValue 256 n v)]
    apply List.map_congr_left
    intro d hd
    have := digitsOfValue_lt (by omega : 0 < 256) n v d hd
    simp
    omega
  rw [be, bytesOf, List.map_map, this, valueOfDigits_digitsOfValue]

/-- The bytes of a byte sequence's value: the sequence. -/
theorem bytesOf_be (s : List Byte) : bytesOf s.length (be s) = s := by
  have h := digitsOfValue_valueOfDigits (toNat_lt_256 s)
  rw [List.length_map] at h
  rw [bytesOf, be, h, List.map_map]
  conv_rhs => rw [← List.map_id s]
  apply List.map_congr_left
  intro x _
  simp

/-- Byte sequences of one length with one value are equal. -/
theorem be_injective {s t : List Byte} (hl : s.length = t.length) (h : be s = be t) : s = t := by
  rw [← bytesOf_be s, ← bytesOf_be t, hl, h]

end Sys2Proof.Machine
end

