-- ==== Sys2Proof/Laws/Lanes.lean ====
section
/-! SUPPORT. Sequences in lanes: what a buffer holds after a sequence is put in it. -/

namespace Sys2Proof.Machine

/-- The lanes as a list: the sequence, then zeros. -/
theorem toList_lanesOfList {l : List Byte} (h : l.length ≤ BUFLEN) :
    (lanesOfList l).toList = l ++ List.replicate (BUFLEN - l.length) 0#8 := by
  have : (lanesOfList l).toList = (l ++ List.replicate BUFLEN 0#8).take BUFLEN := by
    simp [lanesOfList, Vector.toList]
  rw [this, List.take_append, List.take_of_length_le h, List.take_replicate]
  congr 2
  omega

/-- The sequence is what the first lanes hold. -/
theorem inputSequence_lanesOfList {l : List Byte} (h : l.length ≤ BUFLEN) :
    inputSequence l.length (lanesOfList l) = l := by
  rw [inputSequence, toList_lanesOfList h, List.take_left]

/-- A lane past the sequence is zero. -/
theorem lanesOfList_getElem_of_le {l : List Byte} {i : Nat} (hi : i < BUFLEN) (h : l.length ≤ i) :
    (lanesOfList l)[i] = 0#8 := by
  have hl : l.length ≤ BUFLEN := by omega
  have e : (lanesOfList l)[i] = (lanesOfList l).toList[i]'(by simpa using hi) := by simp
  rw [e]
  simp [toList_lanesOfList hl, List.getElem_append_right h]

/-- A lane of the sequence holds its element. -/
theorem lanesOfList_getElem_of_lt {l : List Byte} {i : Nat} (hl : l.length ≤ BUFLEN) (h : i < l.length) :
    (lanesOfList l)[i]'(by omega) = l[i] := by
  have e : (lanesOfList l)[i]'(by omega) = (lanesOfList l).toList[i]'(by simp; omega) := by simp
  rw [e]
  simp [toList_lanesOfList hl, List.getElem_append_left h]

/-- The number of elements of an input sequence. -/
theorem inputSequence_length {len : Nat} (data : Lanes) (h : len ≤ BUFLEN) :
    (inputSequence len data).length = len := by
  simp [inputSequence, h]

/-! ## Lanes kept and lanes cleared -/

@[simp] theorem trimmed_op (c : Command) : c.trimmed.op = c.op := rfl
@[simp] theorem trimmed_a (c : Command) : c.trimmed.a = c.a := rfl
@[simp] theorem trimmed_b (c : Command) : c.trimmed.b = c.b := rfl
@[simp] theorem trimmed_ts (c : Command) : c.trimmed.ts = c.ts := rfl
@[simp] theorem trimmed_len (c : Command) : c.trimmed.len = c.len := rfl
@[simp] theorem trimmed_wout (c : Command) : c.trimmed.wout = c.wout := rfl
@[simp] theorem trimmed_data (c : Command) : c.trimmed.data = keepLanes c.len.toNat c.data := rfl

/-- A lane below `len` is kept and every other is zero. -/
theorem keepLanes_getElem (len : Nat) (data : Lanes) {i : Nat} (h : i < BUFLEN) :
    (keepLanes len data)[i] = if i < len then data[i] else 0#8 := by
  have hl : (data.toList.take len).length = min len BUFLEN := by simp
  have hb : (data.toList.take len).length ≤ BUFLEN := by omega
  unfold keepLanes
  split
  · rw [lanesOfList_getElem_of_lt hb (by omega)]
    simp
  · exact lanesOfList_getElem_of_le h (by omega)

/-- The input sequence is kept. -/
@[simp] theorem inputSequence_keepLanes (len : Nat) (data : Lanes) :
    inputSequence len (keepLanes len data) = inputSequence len data := by
  unfold inputSequence
  apply List.ext_getElem
  · simp
  · intro i h _
    have hi : i < len ∧ i < BUFLEN := by simpa using h
    simpa [hi.1] using keepLanes_getElem len data hi.2

/-- Keeping lanes twice is keeping them once. -/
@[simp] theorem keepLanes_keepLanes (len : Nat) (data : Lanes) :
    keepLanes len (keepLanes len data) = keepLanes len data := by
  have := inputSequence_keepLanes len data
  simp only [inputSequence] at this
  rw [keepLanes, this, ← keepLanes]

/-- Lanes are kept whole exactly when there is nothing to clear. -/
theorem keepLanes_eq_self_iff (len : Nat) (data : Lanes) :
    keepLanes len data = data ↔ zeroFrom len data = true := by
  have hz : zeroFrom len data = true ↔ ∀ (i : Nat) (h : i < BUFLEN), len ≤ i → data[i] = 0#8 := by
    simp only [zeroFrom, List.all_eq_true, beq_iff_eq, List.mem_iff_getElem]
    constructor
    · intro h i hi hl
      refine h _ ⟨i - len, by simp; omega, ?_⟩
      simp [Nat.add_sub_cancel' hl]
    · rintro h x ⟨j, hj, rfl⟩
      have hj' : len + j < BUFLEN := by simp at hj; omega
      simpa using h (len + j) hj' (by omega)
  rw [hz]
  constructor
  · intro h i hi hl
    have := keepLanes_getElem len data hi
    rw [h] at this
    simpa [Nat.not_lt.mpr hl] using this
  · intro h
    ext1 i hi
    rw [keepLanes_getElem len data hi]
    split
    · rfl
    · exact (h i hi (by omega)).symm

@[simp] theorem raisedResponse_status (S : Status) : (raisedResponse S).status = S := rfl

@[simp] theorem sequenceResponse_status (l : List Byte) : (sequenceResponse l).status = .ok := rfl

@[simp] theorem sequenceResponse_rdata (l : List Byte) :
    (sequenceResponse l).rdata = lanesOfList l := rfl

@[simp] theorem sequenceResponse_rlen (l : List Byte) :
    (sequenceResponse l).rlen = BitVec.ofNat 6 l.length := rfl

@[simp] theorem responseOr_ok {α : Type} (v : α) (k : α → Response) : responseOr (.ok v) k = k v := rfl

@[simp] theorem responseOr_error {α : Type} (S : Status) (k : α → Response) :
    responseOr (.error S : Except Status α) k = raisedResponse S := rfl

end Sys2Proof.Machine
end

