-- ==== Sys2Proof/Laws/PerInstr.lean ====
section
/-! SUPPORT. A fact about every instruction as syntax, one lemma per constructor: the command record it
encodes to carries its operation's `op` value, and the opcode map leads back to the operation. -/

namespace Sys2Proof.Laws.EncodesItsOpcode

/-- The `op` of an instruction's command record selects the instruction's operation. -/
def Statement (i : Instr) : Prop :=
  (commandOf i).op = opcodeValue i.opcode ∧ opcodeOf (commandOf i).op = some i.opcode

theorem fromBytes (len : Nat) (data : Lanes) : Statement (.fromBytes len data) := ⟨rfl, rfl⟩
theorem toBytes (a : U128) : Statement (.toBytes a) := ⟨rfl, rfl⟩
theorem add (a b : U128) : Statement (.add a b) := ⟨rfl, rfl⟩
theorem sub (a b : U128) : Statement (.sub a b) := ⟨rfl, rfl⟩
theorem inc (a : U128) : Statement (.inc a) := ⟨rfl, rfl⟩
theorem dec (a : U128) : Statement (.dec a) := ⟨rfl, rfl⟩
theorem cmp (a b : U128) : Statement (.cmp a b) := ⟨rfl, rfl⟩
theorem b62Enc (len wout : Nat) (data : Lanes) : Statement (.b62Enc len wout data) := ⟨rfl, rfl⟩
theorem b62Dec (len wout : Nat) (data : Lanes) : Statement (.b62Dec len wout data) := ⟨rfl, rfl⟩
theorem kCat (ts : Timestamp) (a : U128) : Statement (.kCat ts a) := ⟨rfl, rfl⟩
theorem kSplit (len : Nat) (data : Lanes) : Statement (.kSplit len data) := ⟨rfl, rfl⟩
theorem kGen (ts : Timestamp) (a : U128) : Statement (.kGen ts a) := ⟨rfl, rfl⟩
theorem kParse (len : Nat) (data : Lanes) : Statement (.kParse len data) := ⟨rfl, rfl⟩
theorem kNext (len : Nat) (data : Lanes) : Statement (.kNext len data) := ⟨rfl, rfl⟩
theorem kPrev (len : Nat) (data : Lanes) : Statement (.kPrev len data) := ⟨rfl, rfl⟩

end Sys2Proof.Laws.EncodesItsOpcode
end

