-- ==== Sys2Proof/Laws/State.lean ====
section
/-! SUPPORT. What each update of the state does to each field: one lemma per field per update. -/

namespace Sys2Proof.Machine

variable (s : State) (c : Command) (r : Response)

/-! ## State.advance -/

@[simp] theorem State.advance_phase : s.advance.phase = s.phase := rfl
@[simp] theorem State.advance_lcmd : s.advance.lcmd = s.lcmd := rfl
@[simp] theorem State.advance_lrsp : s.advance.lrsp = s.lrsp := rfl
@[simp] theorem State.advance_scratch : s.advance.scratch = s.scratch := rfl
@[simp] theorem State.advance_inputs : s.advance.inputs = s.inputs.tail := rfl
@[simp] theorem State.advance_draws : s.advance.draws = s.draws := rfl

/-! ## State.drawScratch -/

@[simp] theorem State.drawScratch_phase : s.drawScratch.phase = s.phase := rfl
@[simp] theorem State.drawScratch_lcmd : s.drawScratch.lcmd = s.lcmd := rfl
@[simp] theorem State.drawScratch_lrsp : s.drawScratch.lrsp = s.lrsp := rfl
@[simp] theorem State.drawScratch_scratch : s.drawScratch.scratch = Config.freeScratch s.draws := rfl
@[simp] theorem State.drawScratch_inputs : s.drawScratch.inputs = s.inputs := rfl
@[simp] theorem State.drawScratch_draws : s.drawScratch.draws = s.draws + 1 := rfl

/-! ## State.accept -/

@[simp] theorem State.accept_phase : (s.accept c).phase = .busy := rfl
@[simp] theorem State.accept_lcmd : (s.accept c).lcmd = c := rfl
@[simp] theorem State.accept_lrsp : (s.accept c).lrsp = s.lrsp := rfl
@[simp] theorem State.accept_scratch : (s.accept c).scratch = Config.freeScratch s.draws := rfl
@[simp] theorem State.accept_inputs : (s.accept c).inputs = s.inputs := rfl
@[simp] theorem State.accept_draws : (s.accept c).draws = s.draws + 1 := rfl

/-! ## State.compute -/

@[simp] theorem State.compute_phase : s.compute.phase = s.phase := rfl
@[simp] theorem State.compute_lcmd : s.compute.lcmd = s.lcmd := rfl
@[simp] theorem State.compute_lrsp : s.compute.lrsp = s.lrsp := rfl
@[simp] theorem State.compute_scratch : s.compute.scratch = Config.freeScratch s.draws := rfl
@[simp] theorem State.compute_inputs : s.compute.inputs = s.inputs := rfl
@[simp] theorem State.compute_draws : s.compute.draws = s.draws + 1 := rfl

/-! ## State.complete -/

@[simp] theorem State.complete_phase : (s.complete r).phase = .done := rfl
@[simp] theorem State.complete_lcmd : (s.complete r).lcmd = s.lcmd := rfl
@[simp] theorem State.complete_lrsp : (s.complete r).lrsp = r := rfl
@[simp] theorem State.complete_scratch : (s.complete r).scratch = Config.freeScratch s.draws := rfl
@[simp] theorem State.complete_inputs : (s.complete r).inputs = s.inputs := rfl
@[simp] theorem State.complete_draws : (s.complete r).draws = s.draws + 1 := rfl

/-! ## State.retire -/

@[simp] theorem State.retire_phase : s.retire.phase = .idle := rfl
@[simp] theorem State.retire_lcmd : s.retire.lcmd = Config.freeCommand s.draws := rfl
@[simp] theorem State.retire_lrsp : s.retire.lrsp = Config.freeResponse s.draws := rfl
@[simp] theorem State.retire_scratch : s.retire.scratch = s.scratch := rfl
@[simp] theorem State.retire_inputs : s.retire.inputs = s.inputs := rfl
@[simp] theorem State.retire_draws : s.retire.draws = s.draws + 1 := rfl

/-! ## State.resetEdge -/

@[simp] theorem State.resetEdge_phase : s.resetEdge.phase = .idle := rfl
@[simp] theorem State.resetEdge_lcmd : s.resetEdge.lcmd = Config.freeCommand s.draws := rfl
@[simp] theorem State.resetEdge_lrsp : s.resetEdge.lrsp = Config.freeResponse s.draws := rfl
@[simp] theorem State.resetEdge_scratch : s.resetEdge.scratch = Config.freeScratch s.draws := rfl
@[simp] theorem State.resetEdge_inputs : s.resetEdge.inputs = s.inputs := rfl
@[simp] theorem State.resetEdge_draws : s.resetEdge.draws = s.draws + 1 := rfl

/-! ## State.placeCommand -/

@[simp] theorem State.placeCommand_phase : (s.placeCommand c).phase = .busy := rfl
@[simp] theorem State.placeCommand_lcmd : (s.placeCommand c).lcmd = c := rfl
@[simp] theorem State.placeCommand_lrsp : (s.placeCommand c).lrsp = s.lrsp := rfl
@[simp] theorem State.placeCommand_scratch : (s.placeCommand c).scratch = s.scratch := rfl
@[simp] theorem State.placeCommand_draws : (s.placeCommand c).draws = s.draws := rfl

/-! ## The current cycle -/

@[simp] theorem State.cycle_nil (h : s.inputs = []) : s.cycle = .quiet := by simp [State.cycle, h]

@[simp] theorem State.cycle_cons (e : Cycle) (es : List Cycle) :
    State.cycle { s with inputs := e :: es } = e := rfl

/-- The cycle after a command is placed has no reset and lets the command complete. -/
@[simp] theorem State.placeCommand_cycle : (s.placeCommand c).cycle = .quiet := by
  unfold State.cycle State.placeCommand
  cases s.inputs <;> rfl

/-- Past the laid-down cycles nothing is left to come. -/
@[simp] theorem State.advance_nil (h : s.inputs = []) : s.advance = s := by
  cases s
  simp_all [State.advance]

/-- The ports show a response exactly when the core is in DONE and there is no reset. -/
theorem State.rspPort_eq_some_iff (x : Response) :
    s.rspPort = some x ↔ s.phase = .done ∧ s.cycle.rst = false ∧ s.lrsp = x := by
  simp [State.rspPort, State.rspValid, and_assoc]

end Sys2Proof.Machine
end

