-- ==== Sys2Proof/Laws/Step.lean ====
section
/-! SUPPORT. What ending a command, running one and one step can do, each said once. -/

namespace Sys2Proof.Machine

/-- Ending a command: the only thing it can do is to complete with the response. -/
theorem finish_eq_next_iff (r : Response) (s t : State) : finish r s = .next t ↔ t = s.complete r := by
  simp [finish, eq_comm]

/-- Taking an error: the only thing it can do is to complete with the status and nothing else. -/
theorem raise_eq_next_iff (S : Status) (s t : State) :
    raise S s = .next t ↔ t = s.complete (raisedResponse S) := finish_eq_next_iff _ _ _

/-- Every instruction ends by completing with its response. -/
theorem exec_eq_finish (i : Instr) (s : State) : exec i s = finish (respondInstr i) s := by
  cases i <;> rfl

/-- Running a command completes with the response `Exec` gives it, legal or not. -/
theorem runCommand_eq_finish (c : Command) (s : State) : runCommand c s = finish (respond c) s := by
  unfold runCommand respond
  cases decode c with
  | ok i => exact exec_eq_finish i s
  | error e => cases e; rfl

/-- The lanes that are no part of the input sequence make no difference to a response. -/
theorem respondInstr_trimmed (o : Opcode) (c : Command) :
    respondInstr (instrOf o c.trimmed) = respondInstr (instrOf o c) := by
  cases o <;> simp [instrOf, respondInstr, respondFromBytes, respondB62Enc, respondB62Dec, respondKSplit,
    respondKParse, respondKNext, respondKPrev]

/-- A command that decodes has its instruction's response. -/
theorem respond_of_decode {c : Command} {i : Instr} (h : decode c = .ok i) :
    respond c = respondInstr i := by
  simp [respond, h]

/-- Everything a step can do: its edge is one of the six moves, and the next state is that move's. -/
theorem step_cases {s t : State} (h : step s = .next t) :
    (s.event = .reset ∧ s.cycle.rst = true ∧ t = s.advance.resetEdge) ∨
    (s.event = .accept s.cycle.cmd ∧ s.cycle.rst = false ∧ s.phase = .idle ∧ s.cycle.cmdValid = true ∧
      t = s.advance.accept s.cycle.cmd) ∨
    (s.event = .compute ∧ s.cycle.rst = false ∧ s.phase = .busy ∧ s.cycle.settled = false ∧
      t = s.advance.compute) ∨
    (s.event = .complete ∧ s.cycle.rst = false ∧ s.phase = .busy ∧ s.cycle.settled = true ∧
      t = s.advance.complete (respond s.lcmd)) ∨
    (s.event = .retire ∧ s.cycle.rst = false ∧ s.phase = .done ∧ s.cycle.rspReady = true ∧
      t = s.advance.retire) ∨
    (s.event = .hold ∧ s.cycle.rst = false ∧ t = s.advance ∧
      (s.phase = .idle ∧ s.cycle.cmdValid = false ∨ s.phase = .done ∧ s.cycle.rspReady = false)) := by
  have hr := runCommand_eq_finish s.lcmd s.advance
  cases h0 : s.cycle.rst with
  | true =>
    have he : s.event = .reset := by simp [State.event, h0]
    have : step s = .next s.advance.resetEdge := by simp [step, he]
    exact .inl ⟨he, rfl, by simpa [this, eq_comm] using h⟩
  | false =>
    cases hp : s.phase with
    | idle =>
      cases hv : s.cycle.cmdValid with
      | true =>
        have he : s.event = .accept s.cycle.cmd := by simp [State.event, h0, hp, hv]
        have : step s = .next (s.advance.accept s.cycle.cmd) := by simp [step, he]
        exact .inr (.inl ⟨he, rfl, rfl, rfl, by simpa [this, eq_comm] using h⟩)
      | false =>
        have he : s.event = .hold := by simp [State.event, h0, hp, hv]
        have : step s = .next s.advance := by simp [step, he]
        exact .inr (.inr (.inr (.inr (.inr ⟨he, rfl, by simpa [this, eq_comm] using h, .inl ⟨rfl, rfl⟩⟩))))
    | busy =>
      cases hv : s.cycle.settled with
      | true =>
        have he : s.event = .complete := by simp [State.event, h0, hp, hv]
        have : step s = .next (s.advance.complete (respond s.lcmd)) := by
          simp only [step, he]
          exact hr
        exact .inr (.inr (.inr (.inl ⟨he, rfl, rfl, rfl, by simpa [this, eq_comm] using h⟩)))
      | false =>
        have he : s.event = .compute := by simp [State.event, h0, hp, hv]
        have : step s = .next s.advance.compute := by simp [step, he]
        exact .inr (.inr (.inl ⟨he, rfl, rfl, rfl, by simpa [this, eq_comm] using h⟩))
    | done =>
      cases hv : s.cycle.rspReady with
      | true =>
        have he : s.event = .retire := by simp [State.event, h0, hp, hv]
        have : step s = .next s.advance.retire := by simp [step, he]
        exact .inr (.inr (.inr (.inr (.inl ⟨he, rfl, rfl, rfl, by simpa [this, eq_comm] using h⟩))))
      | false =>
        have he : s.event = .hold := by simp [State.event, h0, hp, hv]
        have : step s = .next s.advance := by simp [step, he]
        exact .inr (.inr (.inr (.inr (.inr ⟨he, rfl, by simpa [this, eq_comm] using h, .inr ⟨rfl, rfl⟩⟩))))

end Sys2Proof.Machine
end

