-- ==== Sys2Proof/Tests/Slice0.lean ====
section
/-! SUPPORT. Tests. The expected values are the spec's: its test vectors (95_test_vectors.md,
96_test_vectors_b62.md, 97_test_vectors_ksuid.md), named in each test's comment, and its tables. Then a
witness for the hypotheses of each statement that has some. -/

namespace Sys2Proof.Tests

open Sys2Proof.Machine

/-! ## WellFormed refuses what no command word can hold -/

theorem test_wellFormed_refuses_length_64 : wellFormed (.fromBytes 64 Lanes.zero) = false := by decide

theorem test_wellFormed_refuses_output_width_64 : wellFormed (.b62Enc 0 64 Lanes.zero) = false := by decide

theorem test_wellFormed_refuses_lane_at_len :
    wellFormed (.kParse 1 (lanesOfList [0x30#8, 0x30#8])) = false := by decide

theorem test_wellFormed_accepts_63 : wellFormed (.b62Dec 63 63 Lanes.zero) = true := by decide

/-! ## Every constructor decodes from a word written out from its encoding -/

/-- U01: FROMBYTES h'00112233445566778899aabbccddeeff' -/
theorem test_decode_fromBytes :
    decodeTableWord 568 0x1000000000000000000000000000000000000000000000000000000000000000000000000040000112233445566778899aabbccddeeff00000000000000000000000000000000 =
      some (.fromBytes 16 (lanesOfList [0x00#8, 0x11#8, 0x22#8, 0x33#8, 0x44#8, 0x55#8, 0x66#8, 0x77#8, 0x88#8, 0x99#8, 0xaa#8, 0xbb#8, 0xcc#8, 0xdd#8, 0xee#8, 0xff#8])) := by decide

/-- U10: TOBYTES 0x0011223344556677_8899AABBCCDDEEFF -/
theorem test_decode_toBytes :
    decodeTableWord 568 0x1100112233445566778899aabbccddeeff00000000000000000000000000000000000000000000000000000000000000000000000000000000000000000000000000000000000 =
      some (.toBytes ⟨0x0011223344556677#64, 0x8899AABBCCDDEEFF#64⟩) := by decide

/-- U15: ADD 0x0123456789ABCDEF_FEDCBA9876543210, 0x1111111111111111_2222222222222222 -/
theorem test_decode_add :
    decodeTableWord 568 0x120123456789abcdeffedcba987654321011111111111111112222222222222222000000000000000000000000000000000000000000000000000000000000000000000000000 =
      some (.add ⟨0x0123456789ABCDEF#64, 0xFEDCBA9876543210#64⟩ ⟨0x1111111111111111#64, 0x2222222222222222#64⟩) := by decide

/-- U24: SUB 0x0123456789ABCDEF_0000000000000001, 0x0000000000000001_0000000000000002 -/
theorem test_decode_sub :
    decodeTableWord 568 0x130123456789abcdef000000000000000100000000000000010000000000000002000000000000000000000000000000000000000000000000000000000000000000000000000 =
      some (.sub ⟨0x0123456789ABCDEF#64, 1#64⟩ ⟨1#64, 2#64⟩) := by decide

/-- U33: INC 0x0000000000000000_FFFFFFFFFFFFFFFF -/
theorem test_decode_inc :
    decodeTableWord 568 0x140000000000000000ffffffffffffffff00000000000000000000000000000000000000000000000000000000000000000000000000000000000000000000000000000000000 =
      some (.inc ⟨0#64, 0xFFFFFFFFFFFFFFFF#64⟩) := by decide

/-- U37: DEC 0x0000000000000001_0000000000000000 -/
theorem test_decode_dec :
    decodeTableWord 568 0x150000000000000001000000000000000000000000000000000000000000000000000000000000000000000000000000000000000000000000000000000000000000000000000 =
      some (.dec ⟨1#64, 0#64⟩) := by decide

/-- U45: CMP 0x8000000000000000_0000000000000000, 0x7FFFFFFFFFFFFFFF_FFFFFFFFFFFFFFFF -/
theorem test_decode_cmp :
    decodeTableWord 568 0x16800000000000000000000000000000007fffffffffffffffffffffffffffffff000000000000000000000000000000000000000000000000000000000000000000000000000 =
      some (.cmp ⟨0x8000000000000000#64, 0#64⟩ ⟨0x7FFFFFFFFFFFFFFF#64, 0xFFFFFFFFFFFFFFFF#64⟩) := by decide

/-- B01: B62ENC h'0100', 3 -/
theorem test_decode_b62Enc :
    decodeTableWord 568 0x200000000000000000000000000000000000000000000000000000000000000000000000000830100000000000000000000000000000000000000000000000000000000000000 =
      some (.b62Enc 2 3 (lanesOfList [0x01#8, 0x00#8])) := by decide

/-- B33: B62DEC "048", 2 -/
theorem test_decode_b62Dec :
    decodeTableWord 568 0x210000000000000000000000000000000000000000000000000000000000000000000000000c23034380000000000000000000000000000000000000000000000000000000000 =
      some (.b62Dec 3 2 (lanesOfList [0x30#8, 0x34#8, 0x38#8])) := by decide

/-- K04: KCAT 0x01020304, 0x05060708090A0B0C_0D0E0F1011121314 -/
theorem test_decode_kCat :
    decodeTableWord 568 0x3005060708090a0b0c0d0e0f101112131400000000000000000000000000000000010203040000000000000000000000000000000000000000000000000000000000000000000 =
      some (.kCat 0x01020304#32 ⟨0x05060708090A0B0C#64, 0x0D0E0F1011121314#64⟩) := by decide

/-- K07: KSPLIT h'0102030405060708090a0b0c0d0e0f1011121314' -/
theorem test_decode_kSplit :
    decodeTableWord 568 0x310000000000000000000000000000000000000000000000000000000000000000000000005000102030405060708090a0b0c0d0e0f1011121314000000000000000000000000 =
      some (.kSplit 20 (lanesOfList [0x01#8, 0x02#8, 0x03#8, 0x04#8, 0x05#8, 0x06#8, 0x07#8, 0x08#8, 0x09#8, 0x0a#8, 0x0b#8, 0x0c#8, 0x0d#8, 0x0e#8, 0x0f#8, 0x10#8, 0x11#8, 0x12#8, 0x13#8, 0x14#8])) := by decide

/-- K13: KGEN 0x0669F7EF, 0xB5A1CBD5A5F3ADF0_1A2B3C4D5E6F7081 -/
theorem test_decode_kGen :
    decodeTableWord 568 0x32b5a1cbd5a5f3adf01a2b3c4d5e6f7081000000000000000000000000000000000669f7ef0000000000000000000000000000000000000000000000000000000000000000000 =
      some (.kGen 0x0669F7EF#32 ⟨0xB5A1CBD5A5F3ADF0#64, 0x1A2B3C4D5E6F7081#64⟩) := by decide

/-- K23: KPARSE "0ujtsYcgvJ4JmNGxlfQTKytWJur" -/
theorem test_decode_kParse :
    decodeTableWord 568 0x330000000000000000000000000000000000000000000000000000000000000000000000006c030756a7473596367764a344a6d4e47786c6651544b7974574a75720000000000 =
      some (.kParse 27 (lanesOfList [0x30#8, 0x75#8, 0x6a#8, 0x74#8, 0x73#8, 0x59#8, 0x63#8, 0x67#8, 0x76#8, 0x4a#8, 0x34#8, 0x4a#8, 0x6d#8, 0x4e#8, 0x47#8, 0x78#8, 0x6c#8, 0x66#8, 0x51#8, 0x54#8, 0x4b#8, 0x79#8, 0x74#8, 0x57#8, 0x4a#8, 0x75#8, 0x72#8])) := by decide

/-- K39: KNEXT "2b2j761X8yVg0BTSkdH0fEg1OQx" -/
theorem test_decode_kNext :
    decodeTableWord 568 0x340000000000000000000000000000000000000000000000000000000000000000000000006c03262326a3736315838795667304254536b644830664567314f51780000000000 =
      some (.kNext 27 (lanesOfList [0x32#8, 0x62#8, 0x32#8, 0x6a#8, 0x37#8, 0x36#8, 0x31#8, 0x58#8, 0x38#8, 0x79#8, 0x56#8, 0x67#8, 0x30#8, 0x42#8, 0x54#8, 0x53#8, 0x6b#8, 0x64#8, 0x48#8, 0x30#8, 0x66#8, 0x45#8, 0x67#8, 0x31#8, 0x4f#8, 0x51#8, 0x78#8])) := by decide

/-- K40: KPREV "2b2j6yET6lFJuhnh0TTrsLYlgoq" -/
theorem test_decode_kPrev :
    decodeTableWord 568 0x350000000000000000000000000000000000000000000000000000000000000000000000006c03262326a36794554366c464a75686e6830545472734c596c676f710000000000 =
      some (.kPrev 27 (lanesOfList [0x32#8, 0x62#8, 0x32#8, 0x6a#8, 0x36#8, 0x79#8, 0x45#8, 0x54#8, 0x36#8, 0x6c#8, 0x46#8, 0x4a#8, 0x75#8, 0x68#8, 0x6e#8, 0x68#8, 0x30#8, 0x54#8, 0x54#8, 0x72#8, 0x73#8, 0x4c#8, 0x59#8, 0x6c#8, 0x67#8, 0x6f#8, 0x71#8])) := by decide

/-- X02: `op` 0x0F is no command. -/
theorem test_decode_rejects_0F : decodeTableWord 568
    0x0f0000000000000000000000000000000000000000000000000000000000000000000000000000000000000000000000000000000000000000000000000000000000000000000 = none := by decide

/-- B61: the lanes at and above `len` are no part of the instruction, and the encoder writes them as zero
(30_encoding.md R61): the word is B34's. -/
theorem test_encode_clears_lanes :
    encode (.b62Dec 2 1 (lanesOfList [0x34#8, 0x37#8, 0x21#8, 0x21#8])) =
      0x210000000000000000000000000000000000000000000000000000000000000000000000000813437000000000000000000000000000000000000000000000000000000000000#564 := by decide +kernel

/-! ## One step runs a command

`answer w` is the response the core offers after the one step that runs the command word `w` from reset.
The expected responses are the fields of the vectors' response words `RW`. -/

/-- The response the core offers after running a command word from reset. -/
def answer (w : Nat) : Option Response :=
  match step (State.reset.withFetchWord 568 w) with
  | .next t => t.rspPort
  | .fault _ => none
  | .refused _ => none

/-- U01: FROMBYTES h'00112233445566778899aabbccddeeff' -/
theorem test_fromBytes :
    answer 0x1000000000000000000000000000000000000000000000000000000000000000000000000040000112233445566778899aabbccddeeff00000000000000000000000000000000 =
      some { Response.zero with
        r := ⟨0x11223344556677#64, 0x8899AABBCCDDEEFF#64⟩ } := by decide

/-- U08: FROMBYTES h'00112233445566778899aabbccddeeff00' -/
theorem test_fromBytes_length :
    answer 0x1000000000000000000000000000000000000000000000000000000000000000000000000044000112233445566778899aabbccddeeff00000000000000000000000000000000 =
      some (raisedResponse .invalidLength) := by decide

/-- U10: TOBYTES 0x0011223344556677_8899AABBCCDDEEFF -/
theorem test_toBytes :
    answer 0x1100112233445566778899aabbccddeeff00000000000000000000000000000000000000000000000000000000000000000000000000000000000000000000000000000000000 =
      some { Response.zero with
        rlen := 16#6, rdata := lanesOfList [
        0x00#8, 0x11#8, 0x22#8, 0x33#8, 0x44#8, 0x55#8, 0x66#8, 0x77#8, 0x88#8,
        0x99#8, 0xaa#8, 0xbb#8, 0xcc#8, 0xdd#8, 0xee#8, 0xff#8] } := by decide

/-- U15: ADD 0x0123456789ABCDEF_FEDCBA9876543210, 0x1111111111111111_2222222222222222 -/
theorem test_add_carry :
    answer 0x120123456789abcdeffedcba987654321011111111111111112222222222222222000000000000000000000000000000000000000000000000000000000000000000000000000 =
      some { Response.zero with
        r := ⟨0x123456789ABCDF01#64, 0x20FEDCBA98765432#64⟩ } := by decide

/-- U18: ADD 0xFFFFFFFFFFFFFFFF_FFFFFFFFFFFFFFFF, 0x0000000000000000_0000000000000001 -/
theorem test_add_wraps :
    answer 0x12ffffffffffffffffffffffffffffffff00000000000000000000000000000001000000000000000000000000000000000000000000000000000000000000000000000000000 =
      some Response.zero := by decide

/-- U24: SUB 0x0123456789ABCDEF_0000000000000001, 0x0000000000000001_0000000000000002 -/
theorem test_sub_borrow :
    answer 0x130123456789abcdef000000000000000100000000000000010000000000000002000000000000000000000000000000000000000000000000000000000000000000000000000 =
      some { Response.zero with
        r := ⟨0x123456789ABCDED#64, 0xFFFFFFFFFFFFFFFF#64⟩ } := by decide

/-- U30: SUB 0x0000000000000000_0000000000000005, 0xFFFFFFFFFFFFFFFF_0000000000000006 -/
theorem test_sub_corner :
    answer 0x1300000000000000000000000000000005ffffffffffffffff0000000000000006000000000000000000000000000000000000000000000000000000000000000000000000000 =
      some { Response.zero with
        r := ⟨0x0#64, 0xFFFFFFFFFFFFFFFF#64⟩ } := by decide

/-- U34: INC 0xFFFFFFFFFFFFFFFF_FFFFFFFFFFFFFFFF -/
theorem test_inc_wraps :
    answer 0x14ffffffffffffffffffffffffffffffff00000000000000000000000000000000000000000000000000000000000000000000000000000000000000000000000000000000000 =
      some Response.zero := by decide

/-- X12: INC 0x0000000000000000_0000000000000001   with b = MAX_U128 -/
theorem test_inc_ignores_b :
    answer 0x1400000000000000000000000000000001ffffffffffffffffffffffffffffffff000000000000000000000000000000000000000000000000000000000000000000000000000 =
      some { Response.zero with
        r := ⟨0x0#64, 0x2#64⟩ } := by decide

/-- U38: DEC 0x0000000000000000_0000000000000000 -/
theorem test_dec_wraps :
    answer 0x150000000000000000000000000000000000000000000000000000000000000000000000000000000000000000000000000000000000000000000000000000000000000000000 =
      some { Response.zero with
        r := ⟨0xFFFFFFFFFFFFFFFF#64, 0xFFFFFFFFFFFFFFFF#64⟩ } := by decide

/-- U44: CMP 0x0000000000000000_FFFFFFFFFFFFFFFF, 0x0000000000000001_0000000000000000 -/
theorem test_cmp_high_word_decides :
    answer 0x160000000000000000ffffffffffffffff00000000000000010000000000000000000000000000000000000000000000000000000000000000000000000000000000000000000 =
      some { Response.zero with
        cmp := .less } := by decide

/-- U45: CMP 0x8000000000000000_0000000000000000, 0x7FFFFFFFFFFFFFFF_FFFFFFFFFFFFFFFF -/
theorem test_cmp_unsigned :
    answer 0x16800000000000000000000000000000007fffffffffffffffffffffffffffffff000000000000000000000000000000000000000000000000000000000000000000000000000 =
      some { Response.zero with
        cmp := .greater } := by decide

/-- B27: B62ENC h'0669f7efb5a1cbd5a5f3adf01a2b3c4d5e6f7081', 27 -/
theorem test_b62Enc :
    answer 0x2000000000000000000000000000000000000000000000000000000000000000000000000051b0669f7efb5a1cbd5a5f3adf01a2b3c4d5e6f7081000000000000000000000000 =
      some { Response.zero with
        rlen := 27#6, rdata := lanesOfList [
        0x30#8, 0x75#8, 0x6a#8, 0x74#8, 0x73#8, 0x59#8, 0x63#8, 0x67#8, 0x76#8,
        0x4a#8, 0x34#8, 0x4a#8, 0x6d#8, 0x4e#8, 0x47#8, 0x78#8, 0x6c#8, 0x66#8,
        0x51#8, 0x54#8, 0x4b#8, 0x79#8, 0x74#8, 0x57#8, 0x4a#8, 0x75#8, 0x72#8] } := by decide

/-- B12: B62ENC h'0f04', 2 -/
theorem test_b62Enc_overflow :
    answer 0x200000000000000000000000000000000000000000000000000000000000000000000000000820f04000000000000000000000000000000000000000000000000000000000000 =
      some (raisedResponse .encodingOverflow) := by decide

/-- B61: B62DEC "47", 1   with data[2] = data[3] = 0x21 -/
theorem test_b62Dec_lanes_above_len :
    answer 0x210000000000000000000000000000000000000000000000000000000000000000000000000813437212100000000000000000000000000000000000000000000000000000000 =
      some { Response.zero with
        rlen := 1#6, rdata := lanesOfList [
        0xff#8] } := by decide

/-- B50: B62DEC "zz!", 1 -/
theorem test_b62Dec_priority :
    answer 0x210000000000000000000000000000000000000000000000000000000000000000000000000c17a7a210000000000000000000000000000000000000000000000000000000000 =
      some (raisedResponse .invalidCharacter) := by decide

/-- K04: KCAT 0x01020304, 0x05060708090A0B0C_0D0E0F1011121314 -/
theorem test_kCat :
    answer 0x3005060708090a0b0c0d0e0f101112131400000000000000000000000000000000010203040000000000000000000000000000000000000000000000000000000000000000000 =
      some { Response.zero with
        rlen := 20#6, rdata := lanesOfList [
        0x01#8, 0x02#8, 0x03#8, 0x04#8, 0x05#8, 0x06#8, 0x07#8, 0x08#8, 0x09#8,
        0x0a#8, 0x0b#8, 0x0c#8, 0x0d#8, 0x0e#8, 0x0f#8, 0x10#8, 0x11#8, 0x12#8,
        0x13#8, 0x14#8] } := by decide

/-- K07: KSPLIT h'0102030405060708090a0b0c0d0e0f1011121314' -/
theorem test_kSplit :
    answer 0x310000000000000000000000000000000000000000000000000000000000000000000000005000102030405060708090a0b0c0d0e0f1011121314000000000000000000000000 =
      some { Response.zero with
        r := ⟨0x5060708090A0B0C#64, 0xD0E0F1011121314#64⟩, rts := 0x1020304#32 } := by decide

/-- K12: KSPLIT h'00000000000000000000000000000000' -/
theorem test_kSplit_length :
    answer 0x310000000000000000000000000000000000000000000000000000000000000000000000004000000000000000000000000000000000000000000000000000000000000000000 =
      some (raisedResponse .invalidLength) := by decide

/-- K13: KGEN 0x0669F7EF, 0xB5A1CBD5A5F3ADF0_1A2B3C4D5E6F7081 -/
theorem test_kGen :
    answer 0x32b5a1cbd5a5f3adf01a2b3c4d5e6f7081000000000000000000000000000000000669f7ef0000000000000000000000000000000000000000000000000000000000000000000 =
      some { Response.zero with
        rlen := 27#6, rdata := lanesOfList [
        0x30#8, 0x75#8, 0x6a#8, 0x74#8, 0x73#8, 0x59#8, 0x63#8, 0x67#8, 0x76#8,
        0x4a#8, 0x34#8, 0x4a#8, 0x6d#8, 0x4e#8, 0x47#8, 0x78#8, 0x6c#8, 0x66#8,
        0x51#8, 0x54#8, 0x4b#8, 0x79#8, 0x74#8, 0x57#8, 0x4a#8, 0x75#8, 0x72#8] } := by decide +kernel

/-- S04: KGEN 0xFFFFFFFF, 0xFFFFFFFFFFFFFFFF_FFFFFFFFFFFFFFFF -/
theorem test_kGen_max :
    answer 0x32ffffffffffffffffffffffffffffffff00000000000000000000000000000000ffffffff0000000000000000000000000000000000000000000000000000000000000000000 =
      some { Response.zero with
        rlen := 27#6, rdata := lanesOfList [
        0x61#8, 0x57#8, 0x67#8, 0x45#8, 0x50#8, 0x54#8, 0x6c#8, 0x31#8, 0x74#8,
        0x6d#8, 0x65#8, 0x62#8, 0x66#8, 0x73#8, 0x51#8, 0x7a#8, 0x46#8, 0x50#8,
        0x34#8, 0x62#8, 0x78#8, 0x77#8, 0x67#8, 0x79#8, 0x38#8, 0x30#8, 0x56#8] } := by decide +kernel

/-- K23: KPARSE "0ujtsYcgvJ4JmNGxlfQTKytWJur" -/
theorem test_kParse :
    answer 0x330000000000000000000000000000000000000000000000000000000000000000000000006c030756a7473596367764a344a6d4e47786c6651544b7974574a75720000000000 =
      some { Response.zero with
        r := ⟨0xB5A1CBD5A5F3ADF0#64, 0x1A2B3C4D5E6F7081#64⟩, rts := 0x669F7EF#32 } := by decide

/-- K26: KPARSE "aWgEPTl1tmebfsQzFP4bxwgy80W" -/
theorem test_kParse_overflow :
    answer 0x330000000000000000000000000000000000000000000000000000000000000000000000006c06157674550546c31746d65626673517a46503462787767793830570000000000 =
      some (raisedResponse .decodingOverflow) := by decide

/-- K39: KNEXT "2b2j761X8yVg0BTSkdH0fEg1OQx" -/
theorem test_kNext_carry :
    answer 0x340000000000000000000000000000000000000000000000000000000000000000000000006c03262326a3736315838795667304254536b644830664567314f51780000000000 =
      some { Response.zero with
        rlen := 27#6, rdata := lanesOfList [
        0x32#8, 0x62#8, 0x32#8, 0x6a#8, 0x37#8, 0x36#8, 0x31#8, 0x58#8, 0x38#8,
        0x79#8, 0x56#8, 0x67#8, 0x30#8, 0x42#8, 0x54#8, 0x53#8, 0x6b#8, 0x64#8,
        0x48#8, 0x30#8, 0x66#8, 0x45#8, 0x67#8, 0x31#8, 0x4f#8, 0x51#8, 0x79#8] } := by decide +kernel

/-- K45: KNEXT "aWgEPTl1tmebfsQzFP4bxwgy80V" -/
theorem test_kNext_wraps :
    answer 0x340000000000000000000000000000000000000000000000000000000000000000000000006c06157674550546c31746d65626673517a46503462787767793830560000000000 =
      some { Response.zero with
        rlen := 27#6, rdata := lanesOfList [
        0x30#8, 0x30#8, 0x30#8, 0x30#8, 0x30#8, 0x30#8, 0x30#8, 0x30#8, 0x30#8,
        0x30#8, 0x30#8, 0x30#8, 0x30#8, 0x30#8, 0x30#8, 0x30#8, 0x30#8, 0x30#8,
        0x30#8, 0x30#8, 0x30#8, 0x30#8, 0x30#8, 0x30#8, 0x30#8, 0x30#8, 0x30#8] } := by decide +kernel

/-- K40: KPREV "2b2j6yET6lFJuhnh0TTrsLYlgoq" -/
theorem test_kPrev_borrow :
    answer 0x350000000000000000000000000000000000000000000000000000000000000000000000006c03262326a36794554366c464a75686e6830545472734c596c676f710000000000 =
      some { Response.zero with
        rlen := 27#6, rdata := lanesOfList [
        0x32#8, 0x62#8, 0x32#8, 0x6a#8, 0x36#8, 0x79#8, 0x45#8, 0x54#8, 0x36#8,
        0x6c#8, 0x46#8, 0x4a#8, 0x75#8, 0x68#8, 0x6e#8, 0x68#8, 0x30#8, 0x54#8,
        0x54#8, 0x72#8, 0x73#8, 0x4c#8, 0x59#8, 0x6c#8, 0x67#8, 0x6f#8, 0x70#8] } := by decide +kernel

/-- K46: KPREV "000000000000000000000000000" -/
theorem test_kPrev_wraps :
    answer 0x350000000000000000000000000000000000000000000000000000000000000000000000006c03030303030303030303030303030303030303030303030303030300000000000 =
      some { Response.zero with
        rlen := 27#6, rdata := lanesOfList [
        0x61#8, 0x57#8, 0x67#8, 0x45#8, 0x50#8, 0x54#8, 0x6c#8, 0x31#8, 0x74#8,
        0x6d#8, 0x65#8, 0x62#8, 0x66#8, 0x73#8, 0x51#8, 0x7a#8, 0x46#8, 0x50#8,
        0x34#8, 0x62#8, 0x78#8, 0x77#8, 0x67#8, 0x79#8, 0x38#8, 0x30#8, 0x56#8] } := by decide +kernel

/-- X10: (op = 0x00, all other bits 1 except lanes = 0x21) -/
theorem test_illegal_ignores_all :
    answer 0x00fffffffffffffffffffffffffffffffffffffffffffffffffffffffffffffffffffffffffff2121212121212121212121212121212121212121212121212121212121212121 =
      some (raisedResponse .illegalCommand) := by decide

/-! ## Response words: the vectors' `RW` (30_encoding.md R51) -/

/-- U44: CMP, LT -/
theorem test_responseWord_less : wordOfResponse { Response.zero with cmp := .less } =
    0x04000000000000000000000000000000000000000000000000000000000000000000000000000000000000000000000000000000000#428 := by decide +kernel

/-- U45: CMP, GT -/
theorem test_responseWord_greater : wordOfResponse { Response.zero with cmp := .greater } =
    0x08000000000000000000000000000000000000000000000000000000000000000000000000000000000000000000000000000000000#428 := by decide +kernel

/-- K23: KPARSE -/
theorem test_responseWord_parts : wordOfResponse { Response.zero with
      r := ⟨0xB5A1CBD5A5F3ADF0#64, 0x1A2B3C4D5E6F7081#64⟩, rts := 0x0669F7EF#32 } =
    0x02d6872f5697ceb7c068acf13579bdc20419a7dfbc00000000000000000000000000000000000000000000000000000000000000000#428 := by decide +kernel

/-- U08: FROMBYTES of 17 bytes, InvalidLength -/
theorem test_responseWord_invalidLength : wordOfResponse (raisedResponse .invalidLength) =
    0x10000000000000000000000000000000000000000000000000000000000000000000000000000000000000000000000000000000000#428 := by decide +kernel

/-- B50: B62DEC, InvalidCharacter -/
theorem test_responseWord_invalidCharacter : wordOfResponse (raisedResponse .invalidCharacter) =
    0x20000000000000000000000000000000000000000000000000000000000000000000000000000000000000000000000000000000000#428 := by decide +kernel

/-- B04: B62ENC, EncodingOverflow -/
theorem test_responseWord_encodingOverflow : wordOfResponse (raisedResponse .encodingOverflow) =
    0x30000000000000000000000000000000000000000000000000000000000000000000000000000000000000000000000000000000000#428 := by decide +kernel

/-- K26: KPARSE, DecodingOverflow -/
theorem test_responseWord_decodingOverflow : wordOfResponse (raisedResponse .decodingOverflow) =
    0x40000000000000000000000000000000000000000000000000000000000000000000000000000000000000000000000000000000000#428 := by decide +kernel

/-- X02: IllegalCommand -/
theorem test_responseWord_illegalCommand : wordOfResponse (raisedResponse .illegalCommand) =
    0x50000000000000000000000000000000000000000000000000000000000000000000000000000000000000000000000000000000000#428 := by decide +kernel

/-! ## The machine -/

/-- INC, as a command record. -/
def incCommand : Command := { Command.zero with op := 0x14#8, a := ⟨0#64, 0xFFFFFFFFFFFFFFFF#64⟩ }

/-- A cycle in which the host offers a command. -/
def offering (c : Command) : Cycle := { Cycle.quiet with cmdValid := true, cmd := c }

/-- The phase after a run. -/
def phaseAfter (k : Nat) (s : State) : Option Phase :=
  match Host.Core.run Sys2Proof.core k s with
  | .next t => some t.phase
  | .fault _ => none
  | .refused _ => none

/-- Program P6 (95_test_vectors.md): accept, a cycle of computing, complete, a cycle of waiting, retire. -/
def p6 : State :=
  { State.reset with
    inputs := [offering incCommand, { offering incCommand with settled := false }, Cycle.quiet, Cycle.quiet,
      { Cycle.quiet with rspReady := true }] }

theorem test_p6_phases :
    (List.range 6).map (fun k => phaseAfter k p6) =
      [some .idle, some .busy, some .busy, some .done, some .done, some .idle] := by decide

/-- P6: reset in flight drops the command. -/
theorem test_reset_in_flight :
    phaseAfter 2 { State.reset with inputs := [offering incCommand, { Cycle.quiet with rst := true }] }
      = some .idle := by decide

/-! ## The long division agrees with the conversion by value on the trace of R101 -/

theorem test_trace_048 : b62EncodeAlg [0x01#8, 0x00#8] 3 = .ok [0x30#8, 0x34#8, 0x38#8] := by decide

theorem test_decode_alg_overflow : b62DecodeAlg [0x34#8, 0x38#8] 1 = .error .decodingOverflow := by decide

/-! ## Witnesses: each statement's hypotheses are met, clause by clause, at a boundary -/

/-- The greatest KSUID string, `aWgEPTl1tmebfsQzFP4bxwgy80V` (42_ksuid.md R128). -/
def maxText : List Byte :=
  [0x61#8, 0x57#8, 0x67#8, 0x45#8, 0x50#8, 0x54#8, 0x6c#8, 0x31#8, 0x74#8,
   0x6d#8, 0x65#8, 0x62#8, 0x66#8, 0x73#8, 0x51#8, 0x7a#8, 0x46#8, 0x50#8, 0x34#8, 0x62#8,
   0x78#8, 0x77#8, 0x67#8, 0x79#8, 0x38#8, 0x30#8, 0x56#8]

/-- `aWgEPTl1tmebfsQzFP4bxwgy80W`, one above it. -/
def aboveMaxText : List Byte := maxText.take 26 ++ [0x57#8]

/-- 27 characters `'0'`. -/
def minText : List Byte := List.replicate 27 0x30#8

/-- 27 characters, the last `'!'`. -/
def badText : List Byte := List.replicate 26 0x30#8 ++ [0x21#8]

theorem witness_FromBytesReadsSixteenBytesBigEndian : (16 = 16) ∧ (15 ≠ 16) ∧ (17 ≠ 16) := by decide

theorem witness_ByteConversionsAreInverse : (List.replicate 16 0xFF#8).length = 16 := by decide

theorem witness_U128LawsHold :
    u128Compare .zero .one = .less ∧ u128Compare .one .max = .less := by decide

theorem witness_B62EncWritesTheNumeralOfTheValue :
    (32 ≤ BUFLEN ∧ 32 ≤ BUFLEN ∧ be ((lanesOfList []).toList.take 32) < 62 ^ 32) ∧
    (be ((lanesOfList [0x3D#8]).toList.take 1) < 62 ^ 1) ∧
    (BUFLEN < 33 ∨ BUFLEN < 0) ∧ (BUFLEN < 0 ∨ BUFLEN < 33) ∧
    (1 ≤ BUFLEN ∧ 62 ^ 1 ≤ be ((lanesOfList [0x3E#8]).toList.take 1)) := by decide

theorem witness_B62DecWritesTheBytesOfTheValue :
    (AllCharacters ((lanesOfList [0x34#8, 0x37#8]).toList.take 2) ∧
      stringValue ((lanesOfList [0x34#8, 0x37#8]).toList.take 2) < 256 ^ 1) ∧
    (BUFLEN < 33 ∨ BUFLEN < 0) ∧ (BUFLEN < 0 ∨ BUFLEN < 33) ∧
    (¬ AllCharacters ((lanesOfList [0x34#8, 0x21#8]).toList.take 2)) ∧
    (AllCharacters ((lanesOfList [0x34#8, 0x38#8]).toList.take 2) ∧
      256 ^ 1 ≤ stringValue ((lanesOfList [0x34#8, 0x38#8]).toList.take 2)) := by decide

theorem witness_AlphabetMappingsAreInverse : 61 < 62 ∧ val62 0x7A#8 = some 61 := by decide

theorem witness_LongDivisionPassDivides : 0 < 62 ∧ ∀ d ∈ [255, 255], d < 256 := by decide

theorem witness_B62DirectionsAreInverse :
    b62Encode [0xFF#8] 2 = .ok [0x34#8, 0x37#8] ∧ b62Decode [0x34#8, 0x37#8] 1 = .ok [0xFF#8] ∧
      (List.replicate 20 0xFF#8).length = 20 := by decide

theorem witness_EncodingKeepsLexicographicOrder :
    ([0x39#8].length = [0x41#8].length ∧ AllCharacters [0x39#8] ∧ AllCharacters [0x41#8]) ∧
    b62Encode [0x09#8] 1 = .ok [0x39#8] ∧ b62Encode [0x0A#8] 1 = .ok [0x41#8] := by decide

theorem witness_KSplitReadsTheWireForm : (20 = 20) ∧ (19 ≠ 20) ∧ (21 ≠ 20) := by decide

/-- The hypotheses of the statements about KPARSE, KNEXT and KPREV are the same. -/
theorem witness_KParseReadsTheTextForm :
    ValidKsuidString ((lanesOfList maxText).toList.take 27) ∧
    ValidKsuidString ((lanesOfList minText).toList.take 27) ∧
    (26 ≠ 27 ∧ 28 ≠ 27) ∧
    ¬ AllCharacters ((lanesOfList badText).toList.take 27) ∧
    (AllCharacters ((lanesOfList aboveMaxText).toList.take 27) ∧
      2 ^ 160 ≤ stringValue ((lanesOfList aboveMaxText).toList.take 27)) := by decide

theorem witness_KNextWritesTheSuccessor :
    ValidKsuidString ((lanesOfList maxText).toList.take 27) ∧
    ¬ AllCharacters ((lanesOfList badText).toList.take 27) ∧
    2 ^ 160 ≤ stringValue ((lanesOfList aboveMaxText).toList.take 27) := by decide

theorem witness_KPrevWritesThePredecessor :
    ValidKsuidString ((lanesOfList minText).toList.take 27) ∧
    ¬ AllCharacters ((lanesOfList badText).toList.take 27) ∧
    2 ^ 160 ≤ stringValue ((lanesOfList aboveMaxText).toList.take 27) := by decide

theorem witness_WireFormConversionsAreInverse : (List.replicate 20 0x01#8).length = 20 := by decide

theorem witness_KsuidsSortAsTheirTexts :
    ksuidGenerate 0#32 .zero = .ok minText ∧ ksuidGenerate 0xFFFFFFFF#32 .max = .ok maxText := by decide +kernel

theorem witness_NextAndPrevUndoEachOther :
    (ValidKsuidString maxText ∧ stringValue maxText = 2 ^ 160 - 1 ∧ stringValue maxText ≠ 0) ∧
    (ValidKsuidString minText ∧ stringValue minText ≠ 2 ^ 160 - 1) := by decide

theorem witness_TextFormIsABijection :
    ValidKsuidString maxText ∧ ¬ ValidKsuidString aboveMaxText := by decide

theorem witness_DecodeUndoesEncode :
    wellFormed (.b62Enc 63 63 Lanes.zero) = true ∧
      decode { Command.zero with op := 0x14#8 } = .ok (.inc .zero) := by decide

theorem witness_EncodingIsCanonical :
    Operand.b ∉ fieldsRead (Instr.inc .zero).opcode ∧
    (commandOf (.b62Dec 31 1 Lanes.zero)).len.toNat ≤ 31 ∧ 31 < BUFLEN ∧
    decode { incCommand with len := 63#6 } = .ok (.inc incCommand.a) := by decide

theorem witness_IllegalOpcodesAreAnswered : opcodeOf Command.zero.op = none := by decide

theorem witness_ResponseDependsOnlyOnFieldsRead :
    AgreeOnRead incCommand { incCommand with b := .max, len := 63#6 } := by
  refine ⟨rfl, fun o ho f hf => ?_⟩
  have : o = .inc := by
    have h : opcodeOf incCommand.op = some .inc := by decide
    rw [h] at ho
    exact (Option.some.inj ho).symm
  subst this
  have : f = .a := by simpa [fieldsRead] using hf
  subst this
  rfl

theorem witness_UnwrittenResultFieldsAreZero :
    opcodeOf incCommand.op = some .inc ∧ ResultField.cmp ∉ fieldsWritten .inc ∧
      (respond incCommand).rlen.toNat ≤ 0 ∧ (respond Command.zero).status ≠ .ok := by decide

/-- A state in BUSY whose command is INC. -/
def busyInc : State := { State.reset with phase := .busy, lcmd := incCommand }

theorem witness_StepRunsTheDecodedInstruction :
    (busyInc.phase = .busy ∧ busyInc.cycle.rst = false ∧ busyInc.cycle.settled = true ∧
      decode busyInc.lcmd = .ok (.inc incCommand.a) ∧ wellFormed (.inc incCommand.a) = true) ∧
    decode { busyInc with lcmd := Command.zero }.lcmd = .error (.illegalCommand 0#8) := by decide

theorem witness_EdgeMovesFollowThePhase :
    (p6.phase = .idle ∧ p6.cycle.rst = false ∧ p6.cycle.cmdValid = true) ∧
    State.reset.cycle.cmdValid = false ∧ busyInc.cycle.settled = true ∧
    ({ busyInc with inputs := [{ Cycle.quiet with settled := false }] }).cycle.settled = false ∧
    ({ busyInc with phase := .done }).cycle.rspReady = false ∧
    ({ busyInc with phase := .done, inputs := [{ Cycle.quiet with rspReady := true }] }).cycle.rspReady
      = true := by decide

theorem witness_ResetFromAnyPhaseGivesIdle :
    ({ busyInc with inputs := [{ Cycle.quiet with rst := true }] }).cycle.rst = true := by decide

/-- The state `busyInc` completes into is consistent because the offered response is INC's. -/
theorem witness_StepKeepsOfferedResponseRight :
    busyInc.Consistent ∧ step busyInc = .next (busyInc.advance.complete (respond incCommand)) :=
  ⟨by decide, rfl⟩

theorem witness_EveryAcceptedCommandCompletes :
    let s : State := { busyInc with inputs := [{ Cycle.quiet with settled := false }] }
    s.phase = .busy ∧ ∀ e ∈ s.inputs, e.rst = false := by decide

theorem witness_ResponsesAnswerCommandsInOrder : p6.Consistent ∧ p6.NoReset 5 := by decide

theorem witness_HiddenStateIsNeverObserved :
    SameVisible State.reset { State.reset with lcmd := incCommand, scratch := ⟨[1#8], 5#6⟩, draws := 7 } ∧
    SameVisible busyInc { busyInc with lrsp := raisedResponse .invalidLength } := by decide

/-! Statements whose only hypothesis is the range of a lane: the last lane, and the first above the result. -/

theorem witness_ToBytesWritesSixteenBytesBigEndian : 7 < 8 ∧ 15 < 16 ∧ 31 < BUFLEN := by decide

theorem witness_KCatWritesTheWireForm : 20 ≤ 20 ∧ 20 < BUFLEN ∧ 31 < BUFLEN := by decide

theorem witness_KGenWritesTheTextForm : 27 ≤ 27 ∧ 27 < BUFLEN ∧ 31 < BUFLEN := by decide

theorem witness_CommandWordHoldsEveryField : 0 < BUFLEN ∧ 31 < BUFLEN := by decide

theorem witness_ResponseWordHoldsEveryField :
    (0 < BUFLEN ∧ 31 < BUFLEN) ∧ wordOfResponse .zero = wordOfResponse .zero := ⟨by decide, rfl⟩

/-- INC accepted, then reset in BUSY: nothing is taken of it. -/
theorem witness_ResetOnlyDropsResponses :
    let s : State := { State.reset with inputs := [offering incCommand, { Cycle.quiet with rst := true }] }
    s.Consistent ∧ (observe 2 s).1 = [incCommand] ∧ (observe 2 s).2.1 = [] := by decide

theorem witness_ResponseStaysUntilTaken :
    let s : State := { busyInc with phase := .done, inputs := [offering incCommand, Cycle.quiet] }
    s.phase = .done ∧ ∀ e ∈ s.inputs.take 2, e.rst = false ∧ e.rspReady = false := by decide

theorem witness_CommandOfferedWhileNotReadyHasNoEffect :
    ({ busyInc with inputs := [Cycle.quiet] } : State).cmdReady = false ∧
    ({ State.reset with inputs := [{ Cycle.quiet with rst := true }] } : State).cmdReady = false := by decide

end Sys2Proof.Tests
end

