-- ==== Sys2Proof/Proofs/Responses.lean ====
section
/-! SUPPORT. Proofs of the statements of 10_state.md on responses: what a command's response depends on
(R26) and which of its fields can be other than zero (R20). -/

namespace Sys2Proof.Machine

/-! ## The command an `op` selects -/

/-- The response of a command whose `op` is in the opcode map is its instruction's. -/
theorem respond_of_opcodeOf_eq_some {c : Command} {o : Opcode} (h : opcodeOf c.op = some o) :
    respond c = respondInstr (instrOf o c.trimmed) :=
  respond_of_decode (by rw [decode, h])

/-- The response of a command whose `op` is not in the opcode map is `IllegalCommand`. -/
theorem respond_of_opcodeOf_eq_none {c : Command} (h : opcodeOf c.op = none) :
    respond c = raisedResponse .illegalCommand := by
  rw [respond, decode, h]

@[simp] theorem instrOf_opcode (o : Opcode) (c : Command) : (instrOf o c).opcode = o := by
  cases o <;> rfl

/-! ## What a response depends on (10_state.md R26) -/

/-- Trimmed lanes hold the input sequence and nothing else. -/
theorem keepLanes_eq_lanesOfList (len : Nat) (data : Lanes) :
    keepLanes len data = lanesOfList (inputSequence len data) := rfl

/-- A command that reads `data` reads its length too (30_encoding.md R55). -/
theorem len_mem_fieldsRead_of_data_mem {o : Opcode} (h : .data ∈ fieldsRead o) : .len ∈ fieldsRead o := by
  revert h
  cases o <;> decide

/-- Every command that reads `data` refuses a length above `BUFLEN`, so it never reads lanes that
do not exist (20_memory.md R37). -/
theorem respondInstr_of_buflen_lt {o : Opcode} {c : Command} (hdata : .data ∈ fieldsRead o)
    (hlen : BUFLEN < c.len.toNat) : respondInstr (instrOf o c) = raisedResponse .invalidLength := by
  have hne (n : Nat) (hn : n ≤ BUFLEN) : c.len.toNat ≠ n := (hn.trans_lt hlen).ne'
  cases o with
  | fromBytes => exact if_pos (hne 16 (by decide))
  | b62Enc => exact if_pos (.inl hlen)
  | b62Dec => exact if_pos (.inl hlen)
  | kSplit => exact if_pos (hne 20 (by decide))
  | kParse => exact if_pos (hne 27 (by decide))
  | kNext => exact if_pos (hne 27 (by decide))
  | kPrev => exact if_pos (hne 27 (by decide))
  | toBytes | add | sub | inc | dec | cmp | kCat | kGen => simp [fieldsRead] at hdata

/-- Trimmed commands that agree on the fields an operation reads are the same instruction of it, as long
as their lanes hold the sequence they read. -/
theorem instrOf_trimmed_congr {o : Opcode} {c d : Command} (h : ∀ f ∈ fieldsRead o, operandAgrees c d f)
    (hlen : .data ∈ fieldsRead o → c.len.toNat ≤ BUFLEN) :
    instrOf o c.trimmed = instrOf o d.trimmed := by
  have hdata (hd : .data ∈ fieldsRead o) :
      keepLanes c.len.toNat c.data = keepLanes d.len.toNat d.data := by
    rw [keepLanes_eq_lanesOfList, keepLanes_eq_lanesOfList, h .data hd (hlen hd)]
  cases o <;> simp_all [fieldsRead, operandAgrees, instrOf]

/-- Agreement on the fields an operation reads gives one response. -/
theorem respondInstr_trimmed_congr {o : Opcode} {c d : Command}
    (h : ∀ f ∈ fieldsRead o, operandAgrees c d f) :
    respondInstr (instrOf o c.trimmed) = respondInstr (instrOf o d.trimmed) := by
  by_cases hlong : .data ∈ fieldsRead o ∧ BUFLEN < c.len.toNat
  · obtain ⟨hdata, hlen⟩ := hlong
    have heq : c.len = d.len := h .len (len_mem_fieldsRead_of_data_mem hdata)
    rw [respondInstr_of_buflen_lt hdata (c := c.trimmed) hlen,
      respondInstr_of_buflen_lt hdata (c := d.trimmed) (by simpa [← heq] using hlen)]
  · rw [instrOf_trimmed_congr h fun hdata => Nat.le_of_not_lt fun hlen => hlong ⟨hdata, hlen⟩]

/-- Settles O38: an illegal `op` is answered alike whatever the fields hold, and a legal one by its
instruction, which agreement on the fields read fixes up to a length that is refused. -/
theorem responseDependsOnlyOnFieldsRead : Obligations.ResponseDependsOnlyOnFieldsRead := by
  intro c d ⟨hop, hread⟩
  cases ho : opcodeOf c.op with
  | none => rw [respond_of_opcodeOf_eq_none ho, respond_of_opcodeOf_eq_none (hop ▸ ho)]
  | some o =>
    rw [respond_of_opcodeOf_eq_some ho, respond_of_opcodeOf_eq_some (hop ▸ ho),
      respondInstr_trimmed_congr (hread o ho)]

/-! ## The lengths of the sequences returned -/

@[simp] theorem u128ToBytes_length (x : U128) : (u128ToBytes x).length = 16 := by
  simp [u128ToBytes, bytesOfWord64]

@[simp] theorem ksuidCat_length (ts : Timestamp) (p : U128) : (ksuidCat ts p).length = 20 := by
  simp [ksuidCat, bytesOfTimestamp]

/-- An encoding that succeeds has the width asked for (41_base62.md R93). -/
theorem b62Encode_length {s u : List Byte} {W : Nat} (h : b62Encode s W = .ok u) : u.length = W := by
  unfold b62Encode at h
  split at h
  · cases h
  · cases h
    simp

/-- A decoding that succeeds has the number of bytes asked for (41_base62.md R96). -/
theorem b62Decode_length {u s : List Byte} {N : Nat} (h : b62Decode u N = .ok s) : s.length = N := by
  unfold b62Decode at h
  split at h
  · cases h
  · split at h
    · cases h
    · cases h
      simp

theorem ksuidGenerate_length {ts : Timestamp} {p : U128} {u : List Byte}
    (h : ksuidGenerate ts p = .ok u) : u.length = 27 :=
  b62Encode_length h

theorem ksuidNext_length {u v : List Byte} (h : ksuidNext u = .ok v) : v.length = 27 := by
  unfold ksuidNext at h
  split at h
  · cases h
  · exact ksuidGenerate_length h

theorem ksuidPrev_length {u v : List Byte} (h : ksuidPrev u = .ok v) : v.length = 27 := by
  unfold ksuidPrev at h
  split at h
  · cases h
  · exact ksuidGenerate_length h

/-! ## The forms a response can take (10_state.md R20) -/

/-- The forms of a response of a command that writes the fields `ws`: an error, which writes none of
them, or the all-zero record with those fields written. -/
inductive ResponseForm : List ResultField → Response → Prop
  | raised {ws : List ResultField} (S : Status) : ResponseForm ws (raisedResponse S)
  | word (x : U128) : ResponseForm [.r] { Response.zero with r := x }
  | comparison (x : Comparison) : ResponseForm [.cmp] { Response.zero with cmp := x }
  | parts (k : Timestamp × U128) : ResponseForm [.rts, .r] (partsResponse k)
  | sequence (l : List Byte) (h : l.length ≤ BUFLEN) : ResponseForm [.rlen, .rdata] (sequenceResponse l)

/-- A form reached past a check that raises is still a form. -/
theorem ResponseForm.of_ite_raised {ws : List ResultField} {p : Prop} [Decidable p] {S : Status}
    {x : Response} (h : ¬p → ResponseForm ws x) : ResponseForm ws (if p then raisedResponse S else x) := by
  split
  · exact .raised S
  · exact h ‹_›

/-- `let x = f(y) else raise` gives a form when every value does. -/
theorem ResponseForm.of_responseOr {α : Type} {ws : List ResultField} {x : Except Status α}
    {k : α → Response} (h : ∀ v, x = .ok v → ResponseForm ws (k v)) :
    ResponseForm ws (responseOr x k) := by
  cases x with
  | ok v => exact h v rfl
  | error S => exact .raised S

/-- A command that returns a sequence of a fixed length gives a form. -/
theorem ResponseForm.of_responseOr_sequence {x : Except Status (List Byte)} {n : Nat} (hn : n ≤ BUFLEN)
    (h : ∀ l, x = .ok l → l.length = n) :
    ResponseForm [.rlen, .rdata] (responseOr x sequenceResponse) :=
  .of_responseOr fun l hl => .sequence l (by rw [h l hl]; exact hn)

/-- Every instruction's response writes the fields of its operation, or none (30_encoding.md R55). -/
theorem respondInstr_form (i : Instr) : ResponseForm (fieldsWritten i.opcode) (respondInstr i) := by
  cases i with
  | fromBytes len data => exact .of_ite_raised fun _ => .word _
  | add a b => exact .word _
  | sub a b => exact .word _
  | inc a => exact .word _
  | dec a => exact .word _
  | cmp a b => exact .comparison _
  | toBytes a => exact .sequence _ (by simp [BUFLEN])
  | kCat ts a => exact .sequence _ (by simp [BUFLEN])
  | b62Enc len wout data =>
    exact .of_ite_raised fun h => .of_responseOr_sequence (n := wout) (by omega) fun _ => b62Encode_length
  | b62Dec len wout data =>
    exact .of_ite_raised fun h => .of_responseOr_sequence (n := wout) (by omega) fun _ => b62Decode_length
  | kGen ts a => exact .of_responseOr_sequence (n := 27) (by decide) fun _ => ksuidGenerate_length
  | kNext len data =>
    exact .of_ite_raised fun _ => .of_responseOr_sequence (n := 27) (by decide) fun _ => ksuidNext_length
  | kPrev len data =>
    exact .of_ite_raised fun _ => .of_responseOr_sequence (n := 27) (by decide) fun _ => ksuidPrev_length
  | kSplit len data => exact .of_ite_raised fun _ => .parts _
  | kParse len data => exact .of_ite_raised fun _ => .of_responseOr fun k _ => .parts k

theorem respond_form_of_opcodeOf_eq_some {c : Command} {o : Opcode} (h : opcodeOf c.op = some o) :
    ResponseForm (fieldsWritten o) (respond c) := by
  simpa [respond_of_opcodeOf_eq_some h] using respondInstr_form (instrOf o c.trimmed)

/-- Every command's response, legal or not, has one of the forms. -/
theorem respond_form (c : Command) : ∃ ws, ResponseForm ws (respond c) := by
  cases ho : opcodeOf c.op with
  | none => exact ⟨[], respond_of_opcodeOf_eq_none ho ▸ .raised _⟩
  | some o => exact ⟨_, respond_form_of_opcodeOf_eq_some ho⟩

/-! ## What each form leaves zero -/

theorem resultIsZero_raisedResponse (S : Status) (f : ResultField) :
    resultIsZero (raisedResponse S) f := by
  cases f <;> rfl

/-- A field that is not written is zero. -/
theorem ResponseForm.resultIsZero_of_notMem {ws : List ResultField} {x : Response} (h : ResponseForm ws x)
    {f : ResultField} (hf : f ∉ ws) : resultIsZero x f := by
  cases h with
  | raised S => exact resultIsZero_raisedResponse S f
  | word | comparison | parts | sequence => cases f <;> simp at hf <;> rfl

/-- The length of a sequence that fits the lanes fits `rlen`. -/
theorem sequenceResponse_rlen_toNat {l : List Byte} (h : l.length ≤ BUFLEN) :
    (sequenceResponse l).rlen.toNat = l.length := by
  rw [sequenceResponse_rlen, BitVec.toNat_ofNat]
  exact Nat.mod_eq_of_lt (h.trans_lt (by decide))

/-- `rlen` counts lanes that exist. -/
theorem ResponseForm.rlen_le {ws : List ResultField} {x : Response} (h : ResponseForm ws x) :
    x.rlen.toNat ≤ BUFLEN := by
  cases h with
  | sequence l hl => rwa [sequenceResponse_rlen_toNat hl]
  | raised | word | comparison | parts => exact Nat.zero_le _

/-- A lane past the sequence returned is zero. -/
theorem ResponseForm.rdata_getElem {ws : List ResultField} {x : Response} (h : ResponseForm ws x)
    {i : Nat} (hi : i < BUFLEN) (hlen : x.rlen.toNat ≤ i) : x.rdata[i] = 0#8 := by
  cases h with
  | sequence l hl =>
    exact lanesOfList_getElem_of_le hi (by rwa [sequenceResponse_rlen_toNat hl] at hlen)
  | raised | word | comparison | parts => exact Vector.getElem_replicate hi

/-- A status other than `OK` comes with nothing else. -/
theorem ResponseForm.eq_raisedResponse {ws : List ResultField} {x : Response} (h : ResponseForm ws x)
    (hs : x.status ≠ .ok) : x = raisedResponse x.status := by
  cases h with
  | raised S => rfl
  | word | comparison | parts | sequence => exact absurd rfl hs

/-- Settles O39: the four parts are what every form of a response keeps. -/
theorem unwrittenResultFieldsAreZero : Obligations.UnwrittenResultFieldsAreZero := by
  refine ⟨fun c o f ho hf => ?_, fun c i hi hlen => ?_, fun c => ?_, fun c hs => ?_⟩
  · exact (respond_form_of_opcodeOf_eq_some ho).resultIsZero_of_notMem hf
  all_goals obtain ⟨ws, hform⟩ := respond_form c
  · exact hform.rdata_getElem hi hlen
  · exact hform.rlen_le
  · exact hform.eq_raisedResponse hs

end Sys2Proof.Machine
end

