-- ==== Sys2Proof/Proofs/Encoding.lean ====
section
/-! SUPPORT. Proofs of the statements of 30_encoding.md on the command word (R50), the response word (R51)
and the illegal opcodes (R57). -/

namespace Sys2Proof.Machine

/-! ## Lanes as part of a word

The `data` part of a word is the big-endian value of the lanes, so the laws of `be` and `bytesOf` carry
over to `bitsOfLanes` and `lanesOfBits`. -/

theorem bitField_toNat {n : Nat} (w : BitVec n) (start len : Nat) :
    bitField w.toNat start len = w.extractLsb' start len := rfl

theorem lanesOfBits_getElem (w : Nat) {i : Nat} (h : i < BUFLEN) :
    (lanesOfBits w)[i] = bitField w (248 - 8 * i) 8 := by
  unfold lanesOfBits
  rw [lanesOfList_getElem_of_lt] <;> simp [h]

/-- The lanes of a word, lane by lane. -/
theorem lanesOfBits_toNat_eq_iff {n : Nat} (w : BitVec n) (v : Lanes) :
    lanesOfBits w.toNat = v ↔
      ∀ (i : Nat) (h : i < BUFLEN), w.extractLsb' (248 - 8 * i) 8 = v[i] := by
  rw [Vector.ext_iff]
  exact forall₂_congr fun i h => by rw [lanesOfBits_getElem _ h, bitField_toNat]

/-- The lanes are in the low 256 bits. -/
theorem lanesOfBits_append {m n : Nat} (x : BitVec m) (y : BitVec n) (hn : 256 ≤ n) :
    lanesOfBits (x ++ y).toNat = lanesOfBits y.toNat := by
  refine (lanesOfBits_toNat_eq_iff _ _).mpr fun i h => ?_
  rw [BitVec.extractLsb'_append_eq_of_add_le (by omega), lanesOfBits_getElem _ h, bitField_toNat]

/-- A digit in base 256 is the eight bits at its place. -/
theorem bytesOf_getElem (w : Nat) {i : Nat} (h : i < (bytesOf BUFLEN w).length) :
    (bytesOf BUFLEN w)[i] = bitField w (248 - 8 * i) 8 := by
  have hstart : 248 - 8 * i = 8 * (31 - i) := by omega
  apply BitVec.eq_of_toNat_eq
  simp [bytesOf, digitsOfValue, bitField, Nat.shiftRight_eq_div_pow, Nat.pow_mul, hstart]

theorem lanesOfBits_toList (w : Nat) : (lanesOfBits w).toList = bytesOf BUFLEN w := by
  refine List.ext_getElem (by simp) fun i h _ => ?_
  have hi : i < BUFLEN := by simpa using h
  rw [bytesOf_getElem, Vector.getElem_toList, lanesOfBits_getElem w hi]

theorem bitsOfLanes_toNat (v : Lanes) : (bitsOfLanes v).toNat = be v.toList := by
  have hbits : bitsOfLanes v = BitVec.ofNat 256 (be v.toList) := by
    simp [bitsOfLanes, be, valueOfDigits, List.foldl_map]
  have hlt : be v.toList < 2 ^ 256 := by
    calc be v.toList < 256 ^ v.toList.length := be_lt _
      _ = 2 ^ 256 := by simp [BUFLEN]
  rw [hbits, BitVec.toNat_ofNat, Nat.mod_eq_of_lt hlt]

theorem lanesOfBits_bitsOfLanes (v : Lanes) : lanesOfBits (bitsOfLanes v).toNat = v := by
  rw [← Vector.toList_inj, lanesOfBits_toList, bitsOfLanes_toNat]
  simpa only [Vector.length_toList] using bytesOf_be v.toList

theorem bitsOfLanes_lanesOfBits (w : Nat) : bitsOfLanes (lanesOfBits w) = bitField w 0 256 := by
  apply BitVec.eq_of_toNat_eq
  rw [bitsOfLanes_toNat, lanesOfBits_toList, be_bytesOf]
  simp [bitField, BUFLEN]

/-! ## The command word (30_encoding.md R50) -/

/-- Reading a field out of the word skips the parts below it and above it. -/
theorem commandOfWord_wordOfCommand (c : Command) : commandOfWord (wordOfCommand c) = c := by
  simp (disch := omega) only [commandOfWord, commandOfBits, wordOfCommand, bitField_toNat,
    BitVec.extractLsb'_append_eq_of_add_le, BitVec.extractLsb'_append_eq_left,
    lanesOfBits_append, lanesOfBits_bitsOfLanes]

/-- The fields are adjacent and leave no bit of the word out. -/
theorem wordOfCommand_commandOfWord (w : BitVec 564) : wordOfCommand (commandOfWord w) = w := by
  simp (disch := rfl) only [wordOfCommand, commandOfWord, commandOfBits, bitField_toNat,
    bitsOfLanes_lanesOfBits, BitVec.extractLsb'_append_extractLsb'_eq_extractLsb']
  exact BitVec.extractLsb'_eq_self

/-- Settles O32: the fields at their bits are the fields of the record the word gives back. -/
theorem commandWordHoldsEveryField : Obligations.CommandWordHoldsEveryField := by
  refine ⟨fun c => ?_, commandOfWord_wordOfCommand, wordOfCommand_commandOfWord⟩
  have h := commandOfWord_wordOfCommand c
  exact ⟨congrArg (·.op) h, congrArg (·.a.hi) h, congrArg (·.a.lo) h, congrArg (·.b.hi) h,
    congrArg (·.b.lo) h, congrArg (·.ts) h, congrArg (·.len) h, congrArg (·.wout) h,
    (lanesOfBits_toNat_eq_iff _ _).mp (congrArg (·.data) h)⟩

/-! ## The response word (30_encoding.md R51) -/

theorem statusCode_injective : Function.Injective statusCode := by
  intro S S' h
  cases S <;> cases S' <;> revert h <;> decide

theorem comparisonCode_injective : Function.Injective comparisonCode := by
  intro x y h
  cases x <;> cases y <;> revert h <;> decide

/-- A word holds every field of a response at its bits. -/
structure HoldsResponse (w : BitVec 428) (r : Response) : Prop where
  status : w.extractLsb' 424 4 = statusCode r.status
  cmp : w.extractLsb' 422 2 = comparisonCode r.cmp
  hi : w.extractLsb' 358 64 = r.r.hi
  lo : w.extractLsb' 294 64 = r.r.lo
  rts : w.extractLsb' 262 32 = r.rts
  rlen : w.extractLsb' 256 6 = r.rlen
  rdata : lanesOfBits w.toNat = r.rdata

theorem holdsResponse_wordOfResponse (r : Response) : HoldsResponse (wordOfResponse r) r := by
  constructor <;>
    simp (disch := omega) only [wordOfResponse, BitVec.extractLsb'_append_eq_of_add_le,
      BitVec.extractLsb'_append_eq_left, lanesOfBits_append, lanesOfBits_bitsOfLanes]

/-- A word holds one response at most. -/
theorem HoldsResponse.unique {w : BitVec 428} {r r' : Response} (h : HoldsResponse w r)
    (h' : HoldsResponse w r') : r = r' := by
  obtain ⟨S, x, ⟨hi, lo⟩, ts, len, data⟩ := r
  obtain ⟨S', x', ⟨hi', lo'⟩, ts', len', data'⟩ := r'
  obtain rfl : S = S' := statusCode_injective (h.status.symm.trans h'.status)
  obtain rfl : x = x' := comparisonCode_injective (h.cmp.symm.trans h'.cmp)
  obtain rfl : hi = hi' := h.hi.symm.trans h'.hi
  obtain rfl : lo = lo' := h.lo.symm.trans h'.lo
  obtain rfl : ts = ts' := h.rts.symm.trans h'.rts
  obtain rfl : len = len' := h.rlen.symm.trans h'.rlen
  obtain rfl : data = data' := h.rdata.symm.trans h'.rdata
  rfl

/-- Settles O33: a response's word holds it, and a word holds one response at most. -/
theorem responseWordHoldsEveryField : Obligations.ResponseWordHoldsEveryField := by
  refine ⟨fun r => ?_, ⟨rfl, rfl, rfl, rfl, rfl, rfl⟩, ⟨rfl, rfl, rfl⟩, fun r r' h => ?_⟩
  · obtain ⟨hstatus, hcmp, hhi, hlo, hrts, hrlen, hrdata⟩ := holdsResponse_wordOfResponse r
    exact ⟨hstatus, hcmp, hhi, hlo, hrts, hrlen, (lanesOfBits_toNat_eq_iff _ _).mp hrdata⟩
  · have hr := holdsResponse_wordOfResponse r
    rw [h] at hr
    exact hr.unique (holdsResponse_wordOfResponse r')

/-! ## Illegal opcodes (30_encoding.md R57) -/

theorem opcodeOf_eq_none_iff (op : BitVec 8) :
    opcodeOf op = none ↔ ∀ o ∈ allOpcodes, opcodeValue o ≠ op := by
  simp [opcodeOf]

/-- The `op` values outside the map are the four ranges around its three units. -/
theorem opcodeOf_eq_none_iff_ranges (op : BitVec 8) :
    opcodeOf op = none ↔
      op.toNat ≤ 0x0F ∨ (0x17 ≤ op.toNat ∧ op.toNat ≤ 0x1F) ∨
        (0x22 ≤ op.toNat ∧ op.toNat ≤ 0x2F) ∨ 0x36 ≤ op.toNat := by
  simp only [opcodeOf_eq_none_iff, allOpcodes, List.forall_mem_cons, opcodeValue, ne_eq,
    ← BitVec.toNat_inj, BitVec.reduceToNat, List.not_mem_nil, false_imp_iff, implies_true, and_true]
  omega

theorem decode_eq_illegalCommand_iff (c : Command) :
    decode c = .error (.illegalCommand c.op) ↔ opcodeOf c.op = none := by
  unfold decode
  cases opcodeOf c.op <;> simp

/-- Settles O36: the decoder rejects what the map leaves out, and the run of it completes with
`IllegalCommand`. -/
theorem illegalOpcodesAreAnswered : Obligations.IllegalOpcodesAreAnswered := by
  refine ⟨fun c => ?_, by decide +kernel, fun c s h => ?_⟩
  · rw [decode_eq_illegalCommand_iff, opcodeOf_eq_none_iff_ranges]
  · refine ⟨s.complete (raisedResponse .illegalCommand), ?_, ⟨rfl, rfl, rfl⟩, rfl⟩
    rw [runCommand_eq_finish, respond_of_opcodeOf_eq_none h, finish]

end Sys2Proof.Machine
end

