-- ==== Sys2Proof/Proofs/U128.lean ====
section
/-! SUPPORT. Proofs of the statements of 40_u128.md: the word arithmetic with carry and borrow (R74, R75),
the byte conversions (R72, R73) and the commands TOBYTES, ADD, SUB, INC, DEC and CMP (R81 to R86). The idea
throughout is to say each function of the unit once by its value, a natural number, and to argue there. -/

namespace Sys2Proof

/-! ## Values (40_u128.md R70, R71) -/

theorem U128.val_lt (x : U128) : x.val < 2 ^ 128 := by
  have hhi := x.hi.isLt
  have hlo := x.lo.isLt
  unfold U128.val
  omega

/-- A pair is determined by its value: the words are its quotient and remainder by `2^64`. -/
theorem U128.val_inj {x y : U128} : x.val = y.val ↔ x = y := by
  refine ⟨fun h => ?_, congrArg U128.val⟩
  obtain ⟨hi, lo⟩ := x
  obtain ⟨hi', lo'⟩ := y
  have hlo := lo.isLt
  have hlo' := lo'.isLt
  simp only [U128.val] at h
  rw [U128.mk.injEq, ← BitVec.toNat_inj, ← BitVec.toNat_inj]
  omega

@[simp] theorem U128.val_zero : U128.zero.val = 0 := rfl
@[simp] theorem U128.val_one : U128.one.val = 1 := rfl
@[simp] theorem U128.val_max : U128.max.val = 2 ^ 128 - 1 := rfl

end Sys2Proof

namespace Sys2Proof.Machine

/-! ## Decoding and completing -/

/-- The `op` value of a command selects it, and the decoder makes its instruction. -/
theorem decode_opcodeValue (o : Opcode) (c : Command) :
    decode { c with op := opcodeValue o } = .ok (instrOf o c.trimmed) := by
  cases o <;> rfl

/-- Every instruction completes, with its response in the latch. -/
theorem exec_eq_next (i : Instr) (s : State) : exec i s = .next (s.complete (respondInstr i)) :=
  exec_eq_finish i s

theorem completed_complete (s : State) (r : Response) : Completed s (s.complete r) := ⟨rfl, rfl, rfl⟩

/-! ## Word addition with carry (40_u128.md R74) -/

theorem add64_sum_toNat (a b : Word64) (c : Bool) :
    (add64 a b c).1.toNat = (a.toNat + b.toNat + c.toNat) % 2 ^ 64 :=
  BitVec.toNat_ofNat _ _

theorem add64_carry_iff (a b : Word64) (c : Bool) :
    (add64 a b c).2 = true ↔ 2 ^ 64 ≤ a.toNat + b.toNat + c.toNat :=
  decide_eq_true_iff

theorem add64_carry_toNat (a b : Word64) (c : Bool) :
    (add64 a b c).2.toNat = (a.toNat + b.toNat + c.toNat) / 2 ^ 64 := by
  have ha := a.isLt
  have hb := b.isLt
  have hc := c.toNat_le
  rw [add64, Bool.toNat, Bool.cond_decide]
  split <;> omega

/-- The comparison form of the carry, away from its one corner: the sum wrapped exactly when it fell below
an operand. -/
theorem add64_carry_iff_lt {a b : Word64} {c : Bool}
    (h : ¬(a = BitVec.allOnes 64 ∧ b = BitVec.allOnes 64 ∧ c = true)) :
    (add64 a b c).2 = true ↔ (add64 a b c).1 < a ∨ (add64 a b c).1 < b := by
  have ha := a.isLt
  have hb := b.isLt
  rw [add64_carry_iff, BitVec.lt_def, BitVec.lt_def, add64_sum_toNat]
  rw [← BitVec.toNat_inj, ← BitVec.toNat_inj, BitVec.toNat_allOnes] at h
  cases c with
  | false => rw [Bool.toNat_false]; omega
  | true => rw [Bool.toNat_true]; simp only [and_true] at h; omega

/-- At the corner the carry is 1 and the sum is as large as both operands. -/
theorem add64_allOnes :
    add64 (BitVec.allOnes 64) (BitVec.allOnes 64) true = (BitVec.allOnes 64, true) := rfl

/-- Without carry in, the comparison with the first operand alone is exact. -/
theorem add64_false_carry_iff_lt_left (a b : Word64) :
    (add64 a b false).2 = true ↔ (add64 a b false).1 < a := by
  have ha := a.isLt
  have hb := b.isLt
  rw [add64_carry_iff, BitVec.lt_def, add64_sum_toNat, Bool.toNat_false]
  omega

theorem add64_comm (a b : Word64) (c : Bool) : add64 a b c = add64 b a c := by
  rw [add64, add64, Nat.add_comm a.toNat]

/-- Settles O8: the sum and the carry by value, from which the comparison form, its corner and the form
without carry in follow. -/
theorem addWithCarryIsByValue : Obligations.AddWithCarryIsByValue := by
  refine ⟨fun a b c => ⟨add64_sum_toNat a b c, add64_carry_toNat a b c, ?_⟩, fun a b => ⟨?_, ?_⟩,
    fun _ _ => rfl⟩
  · split
    · next hcorner =>
      obtain ⟨rfl, rfl, rfl⟩ := hcorner
      rw [add64_allOnes]
      exact ⟨rfl, rfl⟩
    · next hcorner => exact add64_carry_iff_lt hcorner
  · exact add64_false_carry_iff_lt_left a b
  · rw [add64_comm]
    exact add64_false_carry_iff_lt_left b a

/-! ## Word subtraction with borrow (40_u128.md R75) -/

theorem sub64_diff_toNat (a b : Word64) (c : Bool) :
    (sub64 a b c).1.toNat = (a.toNat + 2 ^ 65 - b.toNat - c.toNat) % 2 ^ 64 := by
  have ha := a.isLt
  have hb := b.isLt
  have hc := c.toNat_le
  simp only [sub64, BitVec.toNat_sub, BitVec.toNat_ofNat]
  omega

theorem sub64_borrow_iff (a b : Word64) (c : Bool) :
    (sub64 a b c).2 = true ↔ a.toNat < b.toNat + c.toNat :=
  decide_eq_true_iff

theorem sub64_borrow_toNat (a b : Word64) (c : Bool) :
    (sub64 a b c).2.toNat = if a.toNat < b.toNat + c.toNat then 1 else 0 :=
  Bool.cond_decide _ _ _

/-- The difference and the borrow out account for the whole subtraction. -/
theorem sub64_exact (a b : Word64) (c : Bool) :
    (sub64 a b c).1.toNat + b.toNat + c.toNat = a.toNat + 2 ^ 64 * (sub64 a b c).2.toNat := by
  have ha := a.isLt
  have hb := b.isLt
  have hc := c.toNat_le
  rw [sub64_diff_toNat, sub64_borrow_toNat]
  split <;> omega

/-- The comparison form of the borrow, away from its one corner: the difference wrapped exactly when it rose
above the minuend. -/
theorem sub64_borrow_iff_lt {a b : Word64} {c : Bool} (h : ¬(b = BitVec.allOnes 64 ∧ c = true)) :
    (sub64 a b c).2 = true ↔ a < (sub64 a b c).1 := by
  have ha := a.isLt
  have hb := b.isLt
  rw [sub64_borrow_iff, BitVec.lt_def, sub64_diff_toNat]
  rw [← BitVec.toNat_inj, BitVec.toNat_allOnes] at h
  cases c with
  | false => rw [Bool.toNat_false]; omega
  | true => rw [Bool.toNat_true]; simp only [and_true] at h; omega

/-- At the corner `2^64` is taken away: a borrow always occurs and the difference is the minuend. -/
theorem sub64_allOnes (a : Word64) : sub64 a (BitVec.allOnes 64) true = (a, true) := by
  have ha := a.isLt
  refine Prod.ext (BitVec.eq_of_toNat_eq ?_) ((sub64_borrow_iff _ _ _).mpr ?_)
  · rw [sub64_diff_toNat, BitVec.toNat_allOnes, Bool.toNat_true]
    dsimp only
    omega
  · rw [BitVec.toNat_allOnes, Bool.toNat_true]
    omega

/-- Settles O9: the difference and the borrow by value, from which the comparison form, its corner and the
form without borrow in follow. -/
theorem subWithBorrowIsByValue : Obligations.SubWithBorrowIsByValue := by
  refine ⟨fun a b c => ⟨sub64_diff_toNat a b c, sub64_borrow_iff a b c, ?_⟩,
    fun a b => ⟨sub64_borrow_iff_lt (by simp), sub64_borrow_iff a b false⟩, fun _ _ => rfl⟩
  split
  · next hcorner =>
    obtain ⟨rfl, rfl⟩ := hcorner
    rw [sub64_allOnes]
    exact ⟨rfl, rfl⟩
  · next hcorner => exact sub64_borrow_iff_lt hcorner

/-! ## U128 arithmetic by value (40_u128.md R76, R77, R78) -/

/-- The carry of the low words is what their sum has in excess, so the words add up to the exact sum but
for the high carry. -/
theorem u128Add_val (a b : U128) : (u128Add a b).val = (a.val + b.val) % 2 ^ 128 := by
  simp only [u128Add, U128.val, add64_sum_toNat, add64_carry_toNat, Bool.toNat_false]
  omega

/-- The borrow of the low words is what their difference lacks, so the words make up the exact difference
but for the high borrow. -/
theorem u128Sub_val (a b : U128) : (u128Sub a b).val = (a.val + 2 ^ 128 - b.val) % 2 ^ 128 := by
  have ha := a.val_lt
  have hb := b.val_lt
  have hlo := sub64_exact a.lo b.lo false
  have hhi := sub64_exact a.hi b.hi (sub64 a.lo b.lo false).2
  have hr := (u128Sub a b).val_lt
  rw [Bool.toNat_false] at hlo
  simp only [u128Sub, U128.val] at ha hb hr ⊢
  omega

/-- Everything the comparison can answer: lexicographic on the words is by value. -/
theorem u128Compare_cases (a b : U128) :
    (u128Compare a b = .less ∧ a.val < b.val) ∨ (u128Compare a b = .equal ∧ a.val = b.val) ∨
      (u128Compare a b = .greater ∧ b.val < a.val) := by
  have halo := a.lo.isLt
  have hblo := b.lo.isLt
  simp only [u128Compare, U128.val, BitVec.lt_def]
  split_ifs
  · exact .inl ⟨rfl, by omega⟩
  · exact .inr (.inr ⟨rfl, by omega⟩)
  · exact .inl ⟨rfl, by omega⟩
  · exact .inr (.inr ⟨rfl, by omega⟩)
  · exact .inr (.inl ⟨rfl, by omega⟩)

theorem u128Compare_eq_less_iff (a b : U128) : u128Compare a b = .less ↔ a.val < b.val := by
  obtain ⟨h, hval⟩ | ⟨h, hval⟩ | ⟨h, hval⟩ := u128Compare_cases a b
  · exact iff_of_true h hval
  · exact iff_of_false (by simp [h]) (by omega)
  · exact iff_of_false (by simp [h]) (by omega)

theorem u128Compare_eq_equal_iff (a b : U128) : u128Compare a b = .equal ↔ a = b := by
  rw [← U128.val_inj]
  obtain ⟨h, hval⟩ | ⟨h, hval⟩ | ⟨h, hval⟩ := u128Compare_cases a b
  · exact iff_of_false (by simp [h]) (by omega)
  · exact iff_of_true h hval
  · exact iff_of_false (by simp [h]) (by omega)

theorem u128Compare_eq_greater_iff (a b : U128) : u128Compare a b = .greater ↔ b.val < a.val := by
  obtain ⟨h, hval⟩ | ⟨h, hval⟩ | ⟨h, hval⟩ := u128Compare_cases a b
  · exact iff_of_false (by simp [h]) (by omega)
  · exact iff_of_false (by simp [h]) (by omega)
  · exact iff_of_true h hval

/-! ## ADD, SUB, INC, DEC and CMP (40_u128.md R82 to R86) -/

/-- Settles O3: the response is the word-wise sum, which is the sum by value. -/
theorem addGivesSumModuloTwoPow128 : Obligations.AddGivesSumModuloTwoPow128 :=
  ⟨decode_opcodeValue .add, fun a b _ =>
    ⟨_, exec_eq_next _ _, completed_complete _ _, u128Add a b, rfl, u128Add_val a b⟩⟩

/-- Settles O4: the response is the word-wise difference, which is the difference by value. -/
theorem subGivesDifferenceModuloTwoPow128 : Obligations.SubGivesDifferenceModuloTwoPow128 :=
  ⟨decode_opcodeValue .sub, fun a b _ =>
    ⟨_, exec_eq_next _ _, completed_complete _ _, u128Sub a b, rfl, u128Sub_val a b⟩⟩

/-- The wrap of INC: of the values below `2^128` only the last has a successor divisible by it. -/
theorem u128Add_one_eq_zero_iff (a : U128) : u128Add a .one = U128.zero ↔ a = U128.max := by
  have ha := a.val_lt
  rw [← U128.val_inj, ← U128.val_inj, u128Add_val, U128.val_zero, U128.val_one, U128.val_max]
  omega

/-- Settles O5: INC is ADD with one, and by value its result is zero only after the last value. -/
theorem incGivesSuccessorModuloTwoPow128 : Obligations.IncGivesSuccessorModuloTwoPow128 :=
  ⟨decode_opcodeValue .inc, fun a _ =>
    ⟨_, exec_eq_next _ _, completed_complete _ _, u128Add a .one, rfl, u128Add_val a .one,
      u128Add_one_eq_zero_iff a⟩⟩

theorem u128Sub_one_val (a : U128) : (u128Sub a .one).val = (a.val + (2 ^ 128 - 1)) % 2 ^ 128 := by
  rw [u128Sub_val, U128.val_one, Nat.add_sub_assoc (by omega)]

/-- The wrap of DEC: only zero has a predecessor that wraps. -/
theorem u128Sub_one_eq_max_iff (a : U128) : u128Sub a .one = U128.max ↔ a = U128.zero := by
  have ha := a.val_lt
  rw [← U128.val_inj, ← U128.val_inj, u128Sub_one_val, U128.val_zero, U128.val_max]
  omega

/-- Settles O6: DEC is SUB with one, and by value its result is the last value only before zero. -/
theorem decGivesPredecessorModuloTwoPow128 : Obligations.DecGivesPredecessorModuloTwoPow128 :=
  ⟨decode_opcodeValue .dec, fun a _ =>
    ⟨_, exec_eq_next _ _, completed_complete _ _, u128Sub a .one, rfl, u128Sub_one_val a,
      u128Sub_one_eq_max_iff a⟩⟩

/-- Settles O7: the comparison answers by value, and equal values are equal pairs. -/
theorem cmpOrdersByUnsignedValue : Obligations.CmpOrdersByUnsignedValue :=
  ⟨decode_opcodeValue .cmp, fun a b _ =>
    ⟨_, exec_eq_next _ _, completed_complete _ _, u128Compare a b, rfl, u128Compare_eq_less_iff a b,
      u128Compare_eq_equal_iff a b, u128Compare_eq_greater_iff a b⟩⟩

/-! ## The byte conversions (40_u128.md R72, R73) -/

/-- The bits at a byte's place are the digit in base 256 there. -/
theorem bytesOfWord64_eq_bytesOf (x : Word64) : bytesOfWord64 x = bytesOf 8 x.toNat := by
  rw [bytesOfWord64, bytesOf, digitsOfValue, List.map_map]
  refine List.map_congr_left fun i _ => BitVec.eq_of_toNat_eq ?_
  have hstart : 56 - 8 * i = 8 * (7 - i) := by omega
  simp [Nat.shiftRight_eq_div_pow, Nat.pow_mul, hstart]

@[simp] theorem bytesOfWord64_length (x : Word64) : (bytesOfWord64 x).length = 8 := by
  simp [bytesOfWord64]

theorem be_bytesOfWord64 (x : Word64) : be (bytesOfWord64 x) = x.toNat := by
  rw [bytesOfWord64_eq_bytesOf, be_bytesOf]
  exact Nat.mod_eq_of_lt x.isLt

theorem be_u128ToBytes (x : U128) : be (u128ToBytes x) = x.val := by
  rw [u128ToBytes, be_append, be_bytesOfWord64, be_bytesOfWord64, bytesOfWord64_length, U128.val]
  omega

/-- Byte `i` of the two words, bit by bit. -/
theorem u128ToBytes_getElem (x : U128) {i : Nat} (h : i < (u128ToBytes x).length) :
    (u128ToBytes x)[i] =
      if i < 8 then x.hi.extractLsb' (56 - 8 * i) 8 else x.lo.extractLsb' (56 - 8 * (i - 8)) 8 := by
  simp [u128ToBytes, bytesOfWord64, List.getElem_append]

/-- The value of at most eight bytes fits a word. -/
theorem ofNat64_be_toNat {s : List Byte} (h : s.length ≤ 8) : (BitVec.ofNat 64 (be s)).toNat = be s := by
  rw [BitVec.toNat_ofNat]
  exact Nat.mod_eq_of_lt ((be_lt s).trans_le (Nat.pow_le_pow_right (by decide) h))

theorem u128FromBytes_hi_toNat (s : List Byte) : (u128FromBytes s).hi.toNat = be (s.take 8) :=
  ofNat64_be_toNat (List.length_take_le 8 s)

theorem u128FromBytes_lo_toNat {s : List Byte} (h : s.length = 16) :
    (u128FromBytes s).lo.toNat = be (s.drop 8) := by
  have hlen : (s.drop 8).length = 8 := by simp [h]
  rw [u128FromBytes, List.take_of_length_le hlen.le, ofNat64_be_toNat hlen.le]

theorem u128FromBytes_val {s : List Byte} (h : s.length = 16) : (u128FromBytes s).val = be s := by
  have hlen : (s.drop 8).length = 8 := by simp [h]
  calc (u128FromBytes s).val
      = be (s.take 8) * 256 ^ (s.drop 8).length + be (s.drop 8) := by
        rw [U128.val, u128FromBytes_hi_toNat, u128FromBytes_lo_toNat h, hlen]
        omega
    _ = be s := by rw [← be_append, List.take_append_drop]

theorem u128ToBytes_u128FromBytes {s : List Byte} (h : s.length = 16) :
    u128ToBytes (u128FromBytes s) = s :=
  be_injective (by rw [u128ToBytes_length, h]) (by rw [be_u128ToBytes, u128FromBytes_val h])

theorem u128FromBytes_u128ToBytes (x : U128) : u128FromBytes (u128ToBytes x) = x :=
  U128.val_inj.mp (by rw [u128FromBytes_val (u128ToBytes_length x), be_u128ToBytes])

/-- Always the sixteen bytes of the value: same length, same value (40_u128.md R73). -/
theorem u128ToBytes_eq_bytesOf (x : U128) : u128ToBytes x = bytesOf 16 x.val :=
  be_injective (by simp) (by rw [be_u128ToBytes, be_bytesOf]; exact (Nat.mod_eq_of_lt x.val_lt).symm)

/-- Settles O10: both directions keep the value, and a value has one pair and one sequence of sixteen
bytes. -/
theorem byteConversionsAreInverse : Obligations.ByteConversionsAreInverse := by
  refine ⟨fun s h => ⟨u128FromBytes_hi_toNat s, u128FromBytes_lo_toNat h, u128FromBytes_val h,
    u128ToBytes_u128FromBytes h⟩, fun x => ⟨u128ToBytes_length x, u128ToBytes_eq_bytesOf x,
    u128FromBytes_u128ToBytes x, fun i hi => ⟨?_, ?_⟩⟩⟩
  · rw [List.getElem?_eq_getElem (by simp; omega), u128ToBytes_getElem, if_pos hi]
  · rw [List.getElem?_eq_getElem (by simp; omega), u128ToBytes_getElem, if_neg (by omega),
      Nat.add_sub_cancel_left]

/-! ## TOBYTES (40_u128.md R81) -/

theorem respondToBytes_eq (a : U128) :
    respondToBytes a = { Response.zero with rlen := 16#6, rdata := lanesOfList (u128ToBytes a) } := by
  rw [respondToBytes, sequenceResponse, u128ToBytes_length]

theorem be_take_lanesOfList_u128ToBytes (a : U128) :
    be ((lanesOfList (u128ToBytes a)).toList.take 16) = a.val := by
  have h := inputSequence_lanesOfList (l := u128ToBytes a) (by simp [BUFLEN])
  rw [inputSequence, u128ToBytes_length] at h
  rw [h, be_u128ToBytes]

/-- The lanes hold the bytes of the high word, then those of the low word, then zeros. -/
theorem lanesOfList_u128ToBytes_getElem (a : U128) {i : Nat} (h : i < BUFLEN) :
    (lanesOfList (u128ToBytes a))[i] =
      if i < 8 then a.hi.extractLsb' (56 - 8 * i) 8
      else if i < 16 then a.lo.extractLsb' (56 - 8 * (i - 8)) 8
      else 0#8 := by
  by_cases hi : i < 16
  · rw [lanesOfList_getElem_of_lt (by simp [BUFLEN]) (by simpa using hi), u128ToBytes_getElem, if_pos hi]
  · rw [lanesOfList_getElem_of_le h (by simpa using hi), if_neg (by omega), if_neg hi]

/-- Settles O2: the sequence returned is the sixteen bytes of `a`, put in the lanes. -/
theorem toBytesWritesSixteenBytesBigEndian : Obligations.ToBytesWritesSixteenBytesBigEndian :=
  ⟨decode_opcodeValue .toBytes, fun a _ =>
    ⟨_, exec_eq_next _ _, completed_complete _ _, lanesOfList (u128ToBytes a), respondToBytes_eq a,
      be_take_lanesOfList_u128ToBytes a, fun _ h => lanesOfList_u128ToBytes_getElem a h⟩⟩

end Sys2Proof.Machine
end

section
/-! SUPPORT. Proofs of the statements of 42_ksuid.md on the wire form (R111, R112) and on the two commands
that write a KSUID, KCAT (R120) and KGEN (R122). A sequence is said once by its value, and both forms have
the 160-bit value. -/

namespace Sys2Proof.Machine

/-! ## The timestamp's bytes (42_ksuid.md R111) -/

/-- The bits at a byte's place are the digit in base 256 there, whatever the width of the word. -/
theorem map_extractLsb'_eq_bytesOf {w : Nat} (n : Nat) (x : BitVec w) :
    (List.range n).map (fun i => x.extractLsb' (8 * (n - 1 - i)) 8) = bytesOf n x.toNat := by
  rw [bytesOf, digitsOfValue, List.map_map]
  refine List.map_congr_left fun i _ => BitVec.eq_of_toNat_eq ?_
  simp [Nat.shiftRight_eq_div_pow, Nat.pow_mul]

theorem bytesOfTimestamp_eq_bytesOf (ts : Timestamp) : bytesOfTimestamp ts = bytesOf 4 ts.toNat :=
  map_extractLsb'_eq_bytesOf 4 ts

@[simp] theorem bytesOfTimestamp_length (ts : Timestamp) : (bytesOfTimestamp ts).length = 4 := by
  simp [bytesOfTimestamp]

theorem be_bytesOfTimestamp (ts : Timestamp) : be (bytesOfTimestamp ts) = ts.toNat := by
  rw [bytesOfTimestamp_eq_bytesOf, be_bytesOf]
  exact Nat.mod_eq_of_lt ts.isLt

/-! ## The wire form (42_ksuid.md R111, R112) -/

theorem ksuidValue_lt (ts : Timestamp) (p : U128) : ksuidValue ts p < 2 ^ 160 := by
  have hts := ts.isLt
  have hp := p.val_lt
  unfold ksuidValue
  omega

@[simp] theorem ksuidCat_take_four (ts : Timestamp) (p : U128) :
    (ksuidCat ts p).take 4 = bytesOfTimestamp ts :=
  List.take_left' (bytesOfTimestamp_length ts)

@[simp] theorem ksuidCat_drop_four (ts : Timestamp) (p : U128) :
    (ksuidCat ts p).drop 4 = u128ToBytes p :=
  List.drop_left' (bytesOfTimestamp_length ts)

/-- Sixteen bytes of payload are worth 128 bits, so the timestamp counts from there. -/
theorem be_ksuidCat (ts : Timestamp) (p : U128) : be (ksuidCat ts p) = ksuidValue ts p := by
  rw [ksuidCat, be_append, be_bytesOfTimestamp, be_u128ToBytes, u128ToBytes_length, ksuidValue]
  omega

/-- The value of at most four bytes fits a timestamp. -/
theorem ksuidSplit_fst_toNat (w : List Byte) : (ksuidSplit w).1.toNat = be (w.take 4) := by
  have hlt : be (w.take 4) < 256 ^ 4 :=
    (be_lt _).trans_le (Nat.pow_le_pow_right (by decide) (List.length_take_le 4 w))
  exact Nat.mod_eq_of_lt hlt

theorem ksuidSplit_snd (w : List Byte) : (ksuidSplit w).2 = u128FromBytes (w.drop 4) := rfl

theorem ksuidSplit_ksuidCat (ts : Timestamp) (p : U128) : ksuidSplit (ksuidCat ts p) = (ts, p) := by
  refine Prod.ext (BitVec.eq_of_toNat_eq ?_) ?_
  · rw [ksuidSplit_fst_toNat, ksuidCat_take_four, be_bytesOfTimestamp]
  · rw [ksuidSplit_snd, ksuidCat_drop_four, u128FromBytes_u128ToBytes]

/-- Each part goes back to the bytes it was read from, and the parts' bytes are all there are. -/
theorem ksuidCat_ksuidSplit {w : List Byte} (h : w.length = 20) :
    ksuidCat (ksuidSplit w).1 (ksuidSplit w).2 = w := by
  have htake : (w.take 4).length = 4 := by simp [h]
  have hdrop : (w.drop 4).length = 16 := by simp [h]
  have hts : bytesOfTimestamp (ksuidSplit w).1 = w.take 4 :=
    be_injective (by rw [bytesOfTimestamp_length, htake])
      (by rw [be_bytesOfTimestamp, ksuidSplit_fst_toNat])
  rw [ksuidCat, hts, ksuidSplit_snd, u128ToBytes_u128FromBytes hdrop, List.take_append_drop]

/-- Settles O26: the wire form is the timestamp's four bytes and the payload's sixteen, so its value is the
160-bit value, and each direction undoes the other part by part. -/
theorem wireFormConversionsAreInverse : Obligations.WireFormConversionsAreInverse := by
  refine ⟨fun ts p => ⟨?_, be_ksuidCat ts p, ksuidSplit_ksuidCat ts p, ksuidCat_take_four ts p⟩,
    fun w h => ⟨ksuidSplit_fst_toNat w, ksuidSplit_snd w, ksuidCat_ksuidSplit h⟩⟩
  rw [ksuidCat, bytesOfTimestamp_eq_bytesOf]

/-! ## A sequence returned in the lanes (20_memory.md R36, R37) -/

theorem take_toList_lanesOfList {l : List Byte} {n : Nat} (hl : l.length = n) (hn : n ≤ BUFLEN) :
    (lanesOfList l).toList.take n = l := by
  subst hl
  exact inputSequence_lanesOfList hn

theorem sequenceResponse_eq {l : List Byte} {n : Nat} (hl : l.length = n) :
    sequenceResponse l = { Response.zero with rlen := BitVec.ofNat 6 n, rdata := lanesOfList l } := by
  rw [sequenceResponse, hl]

/-! ## KCAT (42_ksuid.md R120) -/

theorem take_lanesOfList_ksuidCat (ts : Timestamp) (p : U128) :
    (lanesOfList (ksuidCat ts p)).toList.take 20 = ksuidCat ts p :=
  take_toList_lanesOfList (ksuidCat_length ts p) (by decide)

/-- The first four lanes hold the timestamp's bytes. -/
theorem take_four_lanesOfList_ksuidCat (ts : Timestamp) (p : U128) :
    (lanesOfList (ksuidCat ts p)).toList.take 4 = bytesOfTimestamp ts := by
  calc (lanesOfList (ksuidCat ts p)).toList.take 4
      = ((lanesOfList (ksuidCat ts p)).toList.take 20).take 4 := by rw [List.take_take]; rfl
    _ = bytesOfTimestamp ts := by rw [take_lanesOfList_ksuidCat, ksuidCat_take_four]

/-- The sixteen lanes after them hold the payload's bytes. -/
theorem take_drop_four_lanesOfList_ksuidCat (ts : Timestamp) (p : U128) :
    ((lanesOfList (ksuidCat ts p)).toList.drop 4).take 16 = u128ToBytes p := by
  rw [List.take_drop, take_lanesOfList_ksuidCat, ksuidCat_drop_four]

/-- Settles O20: the sequence returned is the wire form, whose parts stand in the lanes in order. -/
theorem kCatWritesTheWireForm : Obligations.KCatWritesTheWireForm := by
  refine ⟨decode_opcodeValue .kCat, fun ts a s => ⟨_, exec_eq_next _ _, completed_complete _ _,
    lanesOfList (ksuidCat ts a), sequenceResponse_eq (ksuidCat_length ts a), ?_, ?_, ?_, ?_⟩⟩
  · rw [take_four_lanesOfList_ksuidCat, be_bytesOfTimestamp]
  · rw [take_drop_four_lanesOfList_ksuidCat, be_u128ToBytes]
  · rw [take_lanesOfList_ksuidCat, be_ksuidCat]
  · exact fun i hi hlen => lanesOfList_getElem_of_le hi ((ksuidCat_length ts a).trans_le hlen)

/-! ## Numerals in base 62 (41_base62.md R91 to R93) -/

theorem toNat_ofNat_byte {n : Nat} (h : n < 256) : (BitVec.ofNat 8 n).toNat = n := Nat.mod_eq_of_lt h

/-- The character of a digit value has that digit value: each of the three ranges of characters is one
range of digit values, shifted. -/
theorem val62_sym62 {d : Nat} (h : d < 62) : val62 (sym62 d) = some d := by
  unfold sym62
  split_ifs with hdigit hupper
  · rw [val62, toNat_ofNat_byte (by omega), if_pos (by omega)]
    exact congrArg some (by omega)
  · rw [val62, toNat_ofNat_byte (by omega), if_neg (by omega), if_pos (by omega)]
    exact congrArg some (by omega)
  · rw [val62, toNat_ofNat_byte (by omega), if_neg (by omega), if_neg (by omega), if_pos (by omega)]
    exact congrArg some (by omega)

theorem allCharacters_map_sym62 {ds : List Nat} (h : ∀ d ∈ ds, d < 62) : AllCharacters (ds.map sym62) := by
  intro x hx
  obtain ⟨d, hd, rfl⟩ := List.mem_map.mp hx
  rw [val62_sym62 (h d hd)]
  rfl

theorem stringValue_map_sym62 {ds : List Nat} (h : ∀ d ∈ ds, d < 62) :
    stringValue (ds.map sym62) = valueOfDigits 62 ds := by
  have hdigits : (ds.map sym62).map (fun x => (val62 x).getD 0) = ds := by
    rw [List.map_map]
    refine (List.map_congr_left fun d hd => ?_).trans (List.map_id ds)
    simp [val62_sym62 (h d hd)]
  rw [stringValue, hdigits]

/-- A value below `62^W` has a numeral of `W` characters, and the encoder gives it (41_base62.md R93). -/
theorem exists_b62Encode_eq_ok {s : List Byte} {W : Nat} (h : be s < 62 ^ W) :
    ∃ u, b62Encode s W = .ok u ∧ u.length = W ∧ AllCharacters u ∧ stringValue u = be s := by
  have hdigits := digitsOfValue_lt (by decide : 0 < 62) W (be s)
  refine ⟨_, if_neg h.not_ge, by simp, allCharacters_map_sym62 hdigits, ?_⟩
  rw [stringValue_map_sym62 hdigits, valueOfDigits_digitsOfValue, Nat.mod_eq_of_lt h]

/-! ## KGEN (42_ksuid.md R114, R122) -/

/-- The text form cannot fail: 27 characters have room for 160 bits. -/
theorem exists_ksuidGenerate_eq_ok (ts : Timestamp) (p : U128) :
    ∃ u, ksuidGenerate ts p = .ok u ∧ u.length = 27 ∧ AllCharacters u ∧
      stringValue u = ksuidValue ts p := by
  have hfits : be (ksuidCat ts p) < 62 ^ 27 := by
    calc be (ksuidCat ts p) = ksuidValue ts p := be_ksuidCat ts p
      _ < 2 ^ 160 := ksuidValue_lt ts p
      _ < 62 ^ 27 := by norm_num
  rw [← be_ksuidCat]
  exact exists_b62Encode_eq_ok hfits

/-- Settles O22: the text form always exists, and it is the sequence returned. -/
theorem kGenWritesTheTextForm : Obligations.KGenWritesTheTextForm := by
  refine ⟨decode_opcodeValue .kGen, fun ts a s => ?_⟩
  obtain ⟨u, hgen, hlen, hchars, hvalue⟩ := exists_ksuidGenerate_eq_ok ts a
  have hresp : respondKGen ts a = { Response.zero with rlen := 27#6, rdata := lanesOfList u } := by
    rw [respondKGen, hgen, responseOr_ok, sequenceResponse_eq hlen]
  refine ⟨_, exec_eq_next _ _, completed_complete _ _, lanesOfList u, hresp, ?_⟩
  rw [take_toList_lanesOfList hlen (by decide)]
  exact ⟨hchars, hvalue, fun i hi hle => lanesOfList_getElem_of_le hi (hlen.trans_le hle)⟩

end Sys2Proof.Machine
end

section
/-! SUPPORT. Proofs of the statements of 30_encoding.md on decoding and encoding: the opcode map (R56), what
the decoder gives (R53), and the canonical encoding (R61). -/

namespace Sys2Proof.Machine

/-! ## The opcode map (30_encoding.md R56) -/

/-- The map leads from an `op` value to the one operation that has it. -/
theorem opcodeOf_eq_some_iff {op : BitVec 8} {o : Opcode} : opcodeOf op = some o ↔ op = opcodeValue o := by
  constructor
  · intro h
    have hfound := List.find?_some (p := fun o => opcodeValue o == op) h
    exact (beq_iff_eq.mp hfound).symm
  · rintro rfl
    cases o <;> rfl

@[simp] theorem fieldsOf_op (i : Instr) : (fieldsOf i).op = opcodeValue i.opcode := by
  cases i <;> rfl

@[simp] theorem commandOf_op (i : Instr) : (commandOf i).op = opcodeValue i.opcode := fieldsOf_op i

/-! ## What the decoder gives (30_encoding.md R53) -/

/-- The decoder gives the instruction of the operation that `op` selects, and nothing else. -/
theorem decode_eq_ok_iff {c : Command} {i : Instr} :
    decode c = .ok i ↔ ∃ o, c.op = opcodeValue o ∧ i = instrOf o c.trimmed := by
  simp only [← opcodeOf_eq_some_iff, decode]
  cases opcodeOf c.op <;> simp [eq_comm]

/-- A count fits its field and the lanes past it are zero: what `wellFormed` asks of an input. -/
theorem wellFormedInput_iff (len : Nat) (data : Lanes) :
    wellFormedInput len data = true ↔ len < 64 ∧ keepLanes len data = data := by
  simp [wellFormedInput, fitsSixBits, keepLanes_eq_self_iff]

theorem fitsSixBits_toNat (n : BitVec 6) : fitsSixBits n.toNat = true := decide_eq_true n.isLt

theorem wellFormedInput_keepLanes (n : BitVec 6) (data : Lanes) :
    wellFormedInput n.toNat (keepLanes n.toNat data) = true :=
  (wellFormedInput_iff _ _).mpr ⟨n.isLt, keepLanes_keepLanes _ _⟩

/-- Fields of a command fit, and trimming clears the lanes that an instruction may not hold. -/
theorem wellFormed_instrOf_trimmed (o : Opcode) (c : Command) : wellFormed (instrOf o c.trimmed) = true := by
  cases o with
  | toBytes | add | sub | inc | dec | cmp | kCat | kGen => rfl
  | fromBytes | kSplit | kParse | kNext | kPrev => exact wellFormedInput_keepLanes c.len c.data
  | b62Enc | b62Dec =>
    exact Bool.and_eq_true_iff.mpr ⟨wellFormedInput_keepLanes c.len c.data, fitsSixBits_toNat c.wout⟩

/-! ## Decoding an encoding (30_encoding.md R61) -/

@[simp] theorem trimmed_trimmed (c : Command) : c.trimmed.trimmed = c.trimmed := by
  simp [Command.trimmed]

theorem toNat_ofNat_six {n : Nat} (h : n < 64) : (BitVec.ofNat 6 n).toNat = n := Nat.mod_eq_of_lt h

/-- The fields of a well-formed instruction hold it whole: counts fit and trimming finds nothing to clear. -/
theorem instrOf_commandOf {i : Instr} (h : wellFormed i = true) : instrOf i.opcode (commandOf i) = i := by
  cases i with
  | toBytes | add | sub | inc | dec | cmp | kCat | kGen => rfl
  | fromBytes len data | kSplit len data | kParse len data | kNext len data | kPrev len data =>
    obtain ⟨hlen, hdata⟩ := (wellFormedInput_iff len data).mp h
    simp [Instr.opcode, instrOf, commandOf, fieldsOf, toNat_ofNat_six hlen, hdata]
  | b62Enc len wout data | b62Dec len wout data =>
    obtain ⟨hinput, hwout⟩ := Bool.and_eq_true_iff.mp h
    obtain ⟨hlen, hdata⟩ := (wellFormedInput_iff len data).mp hinput
    simp [Instr.opcode, instrOf, commandOf, fieldsOf, toNat_ofNat_six hlen, hdata,
      toNat_ofNat_six (of_decide_eq_true hwout)]

theorem decodeWord_encode {i : Instr} (h : wellFormed i = true) : decodeWord (encode i) = .ok i := by
  rw [decodeWord, encode, commandOfWord_wordOfCommand]
  refine decode_eq_ok_iff.mpr ⟨i.opcode, commandOf_op i, ?_⟩
  rw [commandOf, trimmed_trimmed, ← commandOf, instrOf_commandOf h]

/-- Settles O34: an encoded instruction's record holds it whole, and the decoder trims what it reads. -/
theorem decodeUndoesEncode : Obligations.DecodeUndoesEncode := by
  refine ⟨fun i h => decodeWord_encode h, fun w i h => ?_⟩
  obtain ⟨o, -, rfl⟩ := decode_eq_ok_iff.mp h
  exact wellFormed_instrOf_trimmed o _

/-! ## The canonical encoding (30_encoding.md R61) -/

/-- The encoder writes the fields its operation reads into an all-zero record. -/
theorem operandIsZero_commandOf {i : Instr} {f : Operand} (h : f ∉ fieldsRead i.opcode) :
    operandIsZero (commandOf i) f := by
  cases i with
  | fromBytes | kSplit | kParse | kNext | kPrev =>
    cases f with
    | len | data => exact absurd h (by simp [Instr.opcode, fieldsRead])
    | a | b | ts | wout => rfl
  | b62Enc | b62Dec =>
    cases f with
    | len | wout | data => exact absurd h (by simp [Instr.opcode, fieldsRead])
    | a | b | ts => rfl
  | toBytes | inc | dec =>
    cases f with
    | a => exact absurd h (by simp [Instr.opcode, fieldsRead])
    | b | ts | len | wout | data => rfl
  | add | sub | cmp =>
    cases f with
    | a | b => exact absurd h (by simp [Instr.opcode, fieldsRead])
    | ts | len | wout | data => rfl
  | kCat | kGen =>
    cases f with
    | a | ts => exact absurd h (by simp [Instr.opcode, fieldsRead])
    | b | len | wout | data => rfl

/-- The encoding of a decoded command is the command itself on every field its operation reads; of the
lanes, on those below `len`. -/
theorem operandAgrees_commandOf_instrOf (o : Opcode) (c : Command) {f : Operand} (h : f ∈ fieldsRead o) :
    operandAgrees (commandOf (instrOf o c.trimmed)) c f := by
  cases o with
  | fromBytes | kSplit | kParse | kNext | kPrev =>
    cases f with
    | len | data => simp [operandAgrees, instrOf, commandOf, fieldsOf]
    | a | b | ts | wout => simp [fieldsRead] at h
  | b62Enc | b62Dec =>
    cases f with
    | len | wout | data => simp [operandAgrees, instrOf, commandOf, fieldsOf]
    | a | b | ts => simp [fieldsRead] at h
  | toBytes | inc | dec =>
    cases f with
    | a => rfl
    | b | ts | len | wout | data => simp [fieldsRead] at h
  | add | sub | cmp =>
    cases f with
    | a | b => rfl
    | ts | len | wout | data => simp [fieldsRead] at h
  | kCat | kGen =>
    cases f with
    | a | ts => rfl
    | b | len | wout | data => simp [fieldsRead] at h

/-- Settles O54: of every instruction the encoder writes what is read and trims the lanes, and a decoded
command's fields come back as they were. -/
theorem encodingIsCanonical : Obligations.EncodingIsCanonical := by
  refine ⟨fun i f => operandIsZero_commandOf, fun i j hj hlen => ?_,
    fun i => commandOfWord_wordOfCommand _, fun w i h => ?_⟩
  · exact (keepLanes_getElem _ _ hj).trans (if_neg hlen.not_gt)
  · obtain ⟨o, hop, rfl⟩ := decode_eq_ok_iff.mp h
    refine ⟨by simp [hop], fun o' ho' f hf => operandAgrees_commandOf_instrOf o _ ?_⟩
    rw [commandOf_op, instrOf_opcode, opcodeOf_eq_some_iff.mpr rfl] at ho'
    cases ho'
    exact hf

/-! ## The opcode rows and their mask (30_encoding.md section 4) -/

/-- Bits put at a place with room for them are read back from there. -/
theorem extractLsb'_setWidth_shiftLeft {m n k : Nat} (x : BitVec k) (h : n + k ≤ m) :
    (x.setWidth m <<< n).extractLsb' n k = x := by
  ext i hi
  simp [show n + i < m by omega, BitVec.getLsbD_eq_getElem hi]

/-- A mask of ones leaves the bits of a word at their place and clears the others. -/
theorem and_onesMask {m : Nat} (w : BitVec m) (n k : Nat) :
    w &&& ((BitVec.allOnes k).setWidth m <<< n) = (w.extractLsb' n k).setWidth m <<< n := by
  ext i hi
  by_cases hlow : i < n
  · simp [hlow]
  · simp [hlow, show n + (i - n) = i by omega, BitVec.getLsbD_eq_getElem hi, Bool.and_comm]

theorem opMask_eq_ones : 0xFF#564 = (BitVec.allOnes 8).setWidth 564 := by decide +kernel

/-- Settles O35: the mask keeps the bits of `op`, by which alone the decoder selects. -/
theorem opcodeRowsMatchUnderTheirMask : Obligations.OpcodeRowsMatchUnderTheirMask := by
  refine ⟨rfl, fun w o => ?_⟩
  calc (∃ i, decodeWord w = .ok i ∧ i.opcode = o)
      ↔ w.extractLsb' 556 8 = opcodeValue o := by
        simp only [decodeWord, decode_eq_ok_iff]
        constructor
        · rintro ⟨_, ⟨o', hop, rfl⟩, ho⟩
          rw [instrOf_opcode] at ho
          exact ho ▸ hop
        · exact fun hop => ⟨_, ⟨o, hop, rfl⟩, instrOf_opcode o _⟩
    _ ↔ w &&& (0xFF#564 <<< 556) = (opcodeValue o).zeroExtend 564 <<< 556 := by
        rw [opMask_eq_ones, and_onesMask]
        refine ⟨fun h => by rw [h], fun h => ?_⟩
        have hop := congrArg (BitVec.extractLsb' 556 8) h
        rwa [extractLsb'_setWidth_shiftLeft _ (by decide), extractLsb'_setWidth_shiftLeft _ (by decide)] at hop

/-- Settles O37: three words of the spec's vectors, evaluated. -/
theorem writtenOutWordsDecode : Obligations.WrittenOutWordsDecode := by
  refine ⟨?_, ?_, ?_⟩ <;> decide +kernel

end Sys2Proof.Machine
end

section
/-! SUPPORT. Proofs of the statements of 10_state.md and 70_reset_and_hazards.md on the machine: the move each
edge makes (R22, R155), the invariant, and what the host observes of a run (R27, R157, R160, R161, R164). -/

namespace Sys2Proof.Machine

/-! ## The move each edge makes, one equation a move (10_state.md R22) -/

theorem step_of_rst {s : State} (h : s.cycle.rst = true) : step s = .next s.advance.resetEdge := by
  simp [step, State.event, h]

theorem step_of_idle_offered {s : State} (h : s.cycle.rst = false) (hp : s.phase = .idle)
    (hv : s.cycle.cmdValid = true) : step s = .next (s.advance.accept s.cycle.cmd) := by
  simp [step, State.event, h, hp, hv]

theorem step_of_idle_quiet {s : State} (h : s.cycle.rst = false) (hp : s.phase = .idle)
    (hv : s.cycle.cmdValid = false) : step s = .next s.advance := by
  simp [step, State.event, h, hp, hv]

theorem step_of_busy_unsettled {s : State} (h : s.cycle.rst = false) (hp : s.phase = .busy)
    (hv : s.cycle.settled = false) : step s = .next s.advance.compute := by
  simp [step, State.event, h, hp, hv]

theorem step_of_busy_settled_eq_runCommand {s : State} (h : s.cycle.rst = false) (hp : s.phase = .busy)
    (hv : s.cycle.settled = true) : step s = runCommand s.lcmd s.advance := by
  simp [step, State.event, h, hp, hv]

theorem step_of_busy_settled {s : State} (h : s.cycle.rst = false) (hp : s.phase = .busy)
    (hv : s.cycle.settled = true) : step s = .next (s.advance.complete (respond s.lcmd)) := by
  rw [step_of_busy_settled_eq_runCommand h hp hv, runCommand_eq_finish, finish]

theorem step_of_done_taken {s : State} (h : s.cycle.rst = false) (hp : s.phase = .done)
    (hv : s.cycle.rspReady = true) : step s = .next s.advance.retire := by
  simp [step, State.event, h, hp, hv]

theorem step_of_done_waiting {s : State} (h : s.cycle.rst = false) (hp : s.phase = .done)
    (hv : s.cycle.rspReady = false) : step s = .next s.advance := by
  simp [step, State.event, h, hp, hv]

/-- Every edge has its move: reset, or one of two in each phase. -/
theorem exists_step_eq_next (s : State) : ∃ t, step s = .next t := by
  cases h : s.cycle.rst with
  | true => exact ⟨_, step_of_rst h⟩
  | false =>
    cases hp : s.phase with
    | idle =>
      cases hv : s.cycle.cmdValid with
      | true => exact ⟨_, step_of_idle_offered h hp hv⟩
      | false => exact ⟨_, step_of_idle_quiet h hp hv⟩
    | busy =>
      cases hv : s.cycle.settled with
      | true => exact ⟨_, step_of_busy_settled h hp hv⟩
      | false => exact ⟨_, step_of_busy_unsettled h hp hv⟩
    | done =>
      cases hv : s.cycle.rspReady with
      | true => exact ⟨_, step_of_done_taken h hp hv⟩
      | false => exact ⟨_, step_of_done_waiting h hp hv⟩

/-- Settles O45: every edge has its move, and no move stops the core. -/
theorem everyStepHasANextState : Obligations.EveryStepHasANextState := exists_step_eq_next

/-- Every move uses up the current cycle's ports and no others. -/
theorem step_inputs {s t : State} (h : step s = .next t) : t.inputs = s.inputs.tail := by
  obtain ⟨-, -, rfl⟩ | ⟨-, -, -, -, rfl⟩ | ⟨-, -, -, -, rfl⟩ | ⟨-, -, -, -, rfl⟩ | ⟨-, -, -, -, rfl⟩ |
    ⟨-, -, rfl, -⟩ := step_cases h <;> rfl

/-- Settles O42: one equation a move. -/
theorem edgeMovesFollowThePhase : Obligations.EdgeMovesFollowThePhase := fun _ h =>
  ⟨fun hp hv => ⟨_, step_of_idle_offered h hp hv, rfl, rfl, rfl⟩,
    step_of_idle_quiet h,
    fun hp hv => ⟨_, step_of_busy_unsettled h hp hv, hp, rfl, rfl, rfl⟩,
    fun hp hv => ⟨_, step_of_busy_settled h hp hv, rfl, rfl, rfl, rfl⟩,
    fun hp hv => ⟨_, step_of_done_taken h hp hv, rfl, rfl⟩,
    step_of_done_waiting h⟩

/-- Settles O41: a completing step is the run of the latched command, which the decoder directs. -/
theorem stepRunsTheDecodedInstruction : Obligations.StepRunsTheDecodedInstruction := by
  refine ⟨fun s i hp h hv hi _ => ?_, fun s op hp h hv hop => ?_, fun s => ⟨rfl, rfl, rfl, rfl⟩⟩
  · rw [step_of_busy_settled_eq_runCommand h hp hv, runCommand, hi]
  · rw [step_of_busy_settled_eq_runCommand h hp hv, runCommand, hop]

/-! ## The handshakes (10_state.md R16) -/

theorem State.cmdReady_of_rst {s : State} (h : s.cycle.rst = true) : s.cmdReady = false := by
  simp [State.cmdReady, h]

theorem State.rspValid_of_rst {s : State} (h : s.cycle.rst = true) : s.rspValid = false := by
  simp [State.rspValid, h]

/-- A core that is not ready accepts nothing. -/
theorem State.acceptedNow_of_not_ready {s : State} (h : s.cmdReady = false) : s.acceptedNow = [] := by
  simp [State.acceptedNow, h]

/-- A core that offers no response has none taken. -/
theorem State.takenNow_of_not_valid {s : State} (h : s.rspValid = false) : s.takenNow = [] := by
  simp [State.takenNow, h]

theorem State.cmdReady_of_phase_ne {s : State} (h : s.phase ≠ .idle) : s.cmdReady = false := by
  simp [State.cmdReady, h]

theorem State.rspValid_of_phase_ne {s : State} (h : s.phase ≠ .done) : s.rspValid = false := by
  simp [State.rspValid, h]

/-- Settles O43: reset masks both handshakes, and its edge leads to IDLE. -/
theorem resetFromAnyPhaseGivesIdle : Obligations.ResetFromAnyPhaseGivesIdle := fun _ h =>
  ⟨State.cmdReady_of_rst h, State.rspValid_of_rst h,
    State.acceptedNow_of_not_ready (State.cmdReady_of_rst h),
    State.takenNow_of_not_valid (State.rspValid_of_rst h), _, step_of_rst h, rfl, rfl⟩

/-- A step is decided by its move, the command held and the state with the next cycle's ports. -/
theorem step_congr {s s' : State} (hevent : s.event = s'.event) (hcmd : s.lcmd = s'.lcmd)
    (hadvance : s.advance = s'.advance) : step s = step s' := by
  simp only [step, hevent, hcmd, hadvance]

/-- A core that is not ready does not look at the command ports. -/
theorem event_congr_of_not_ready {s s' : State} (h : s.cmdReady = false) (hphase : s'.phase = s.phase)
    (hrst : s'.cycle.rst = s.cycle.rst) (hready : s'.cycle.rspReady = s.cycle.rspReady)
    (hsettled : s'.cycle.settled = s.cycle.settled) : s'.event = s.event := by
  rw [State.event, State.event, hphase, hrst, hready, hsettled]
  cases hr : s.cycle.rst with
  | true => rfl
  | false =>
    cases hp : s.phase with
    | idle => simp [State.cmdReady, hp, hr] at h
    | busy | done => rfl

/-- Settles O53: the move is the same, and so is the state it is made on. -/
theorem commandOfferedWhileNotReadyHasNoEffect : Obligations.CommandOfferedWhileNotReadyHasNoEffect := by
  refine fun s e es valid c h => ⟨State.acceptedNow_of_not_ready h, ?_⟩
  have hevent := event_congr_of_not_ready h
    (s' := { s with inputs := { e with cmdValid := valid, cmd := c } :: es }) rfl rfl rfl rfl
  exact step_congr hevent.symm rfl rfl

/-! ## The invariant -/

/-- Settles O46: only `complete` enters DONE, and it latches the response of the command held; in DONE
nothing but leaving it changes either latch. -/
theorem stepKeepsOfferedResponseRight : Obligations.StepKeepsOfferedResponseRight := by
  intro s t hs h hdone
  obtain ⟨-, -, rfl⟩ | ⟨-, -, -, -, rfl⟩ | ⟨-, -, hp, -, rfl⟩ | ⟨-, -, -, -, rfl⟩ | ⟨-, -, -, -, rfl⟩ |
    ⟨-, -, rfl, -⟩ := step_cases h
  case inl | inr.inl => cases hdone
  case inr.inr.inl => simp [hp] at hdone
  case inr.inr.inr.inl => rfl
  case inr.inr.inr.inr.inl => cases hdone
  case inr.inr.inr.inr.inr => exact hs hdone

/-- Settles O47: neither state is in DONE. -/
theorem resetOffersNoWrongResponse : Obligations.ResetOffersNoWrongResponse :=
  ⟨nofun, fun _ _ _ => nofun⟩

/-! ## Runs -/

theorem run_succ {s t : State} (h : step s = .next t) (n : Nat) :
    Host.Core.run Sys2Proof.core (n + 1) s = Host.Core.run Sys2Proof.core n t := by
  have hcore : Sys2Proof.core.step s = .next t := h
  simp only [Host.Core.run, hcore]

/-- Settles O44: the first edge accepts the command, and the second, in a quiet cycle, completes it. -/
theorem firstCommandAfterResetIsAnswered : Obligations.FirstCommandAfterResetIsAnswered := by
  refine ⟨rfl, rfl, rfl, fun c ready settled => ?_⟩
  have haccept := step_of_idle_offered
    (s := { State.reset with inputs := [⟨false, true, c, ready, settled⟩] }) rfl rfl rfl
  have hcomplete := step_of_busy_settled
    (s := { State.reset with inputs := [⟨false, true, c, ready, settled⟩] }.advance.accept c) rfl rfl rfl
  exact ⟨_, (run_succ haccept 1).trans (run_succ hcomplete 0), rfl, rfl, rfl⟩

/-- What holds of every cycle laid down and of a quiet one holds of the current one. -/
theorem State.cycle_of_forall_mem_take {P : Cycle → Prop} {n : Nat} {s : State} (hquiet : P .quiet)
    (h : ∀ e ∈ s.inputs.take (n + 1), P e) : P s.cycle := by
  cases hi : s.inputs with
  | nil => rwa [s.cycle_nil hi]
  | cons e es =>
    rw [State.cycle, hi]
    exact h e (by simp [hi])

/-- What holds of the next `n + 1` cycles holds, one edge later, of the next `n`. -/
theorem forall_mem_take_of_step {P : Cycle → Prop} {n : Nat} {s t : State} (ht : step s = .next t)
    (h : ∀ e ∈ s.inputs.take (n + 1), P e) : ∀ e ∈ t.inputs.take n, P e := by
  intro e he
  refine h e ?_
  rw [step_inputs ht] at he
  cases hi : s.inputs with
  | nil => simp [hi] at he
  | cons e' es => exact List.mem_cons_of_mem _ (by simpa [hi] using he)

/-- Within `n` edges, and after at least one, the core offers the response of the command it holds, and until
then it is in BUSY with that command. -/
def CompletesWithin (n : Nat) (s : State) : Prop :=
  ∃ (k : Nat) (t : State), 1 ≤ k ∧ k ≤ n ∧ Host.Core.run Sys2Proof.core k s = .next t ∧
    t.phase = .done ∧ t.lcmd = s.lcmd ∧ t.lrsp = respond s.lcmd ∧
    ∀ (j : Nat) (u : State), j < k → Host.Core.run Sys2Proof.core j s = .next u →
      u.phase = .busy ∧ u.lcmd = s.lcmd

/-- A core in BUSY whose computation has finished completes at this edge. -/
theorem completesWithin_of_settled {s : State} {n : Nat} (hn : 1 ≤ n) (hp : s.phase = .busy)
    (hr : s.cycle.rst = false) (hv : s.cycle.settled = true) : CompletesWithin n s := by
  have hstep := step_of_busy_settled hr hp hv
  refine ⟨1, _, le_rfl, hn, run_succ hstep 0, rfl, rfl, rfl, fun j u hj hu => ?_⟩
  obtain rfl : j = 0 := by omega
  cases hu
  exact ⟨hp, rfl⟩

/-- One more cycle of computing changes neither the command held nor, so, the response due. -/
theorem CompletesWithin.of_compute {s : State} {n : Nat} (hp : s.phase = .busy)
    (hr : s.cycle.rst = false) (hv : s.cycle.settled = false)
    (h : CompletesWithin n s.advance.compute) : CompletesWithin (n + 1) s := by
  have hstep := step_of_busy_unsettled hr hp hv
  obtain ⟨k, t, -, hk, hrun, hdone, hcmd, hrsp, hbusy⟩ := h
  refine ⟨k + 1, t, by omega, by omega, (run_succ hstep k).trans hrun, hdone, hcmd, hrsp,
    fun j u hj hu => ?_⟩
  cases j with
  | zero => cases hu; exact ⟨hp, rfl⟩
  | succ j =>
    rw [run_succ hstep] at hu
    exact hbusy j u (by omega) hu

/-- Settles O48, by induction on the cycles laid down: the core completes in the first that says so, and in
the quiet cycle after them at the latest. -/
theorem everyAcceptedCommandCompletes : Obligations.EveryAcceptedCommandCompletes := by
  intro s
  show s.phase = .busy → (∀ e ∈ s.inputs, e.rst = false) → CompletesWithin (s.inputs.length + 1) s
  induction hi : s.inputs generalizing s with
  | nil =>
    intro hp _
    exact completesWithin_of_settled (by simp) hp (by rw [s.cycle_nil hi]; rfl) (by rw [s.cycle_nil hi]; rfl)
  | cons e es ih =>
    intro hp hr
    obtain ⟨hre, hres⟩ := List.forall_mem_cons.mp hr
    have hcycle : s.cycle = e := by rw [State.cycle, hi]; rfl
    cases hv : e.settled with
    | true => exact completesWithin_of_settled (by simp) hp (hcycle ▸ hre) (hcycle ▸ hv)
    | false =>
      refine .of_compute hp (hcycle ▸ hre) (hcycle ▸ hv) (ih s.advance.compute ?_ hp hres)
      rw [State.compute_inputs, State.advance_inputs, hi, List.tail_cons]

/-- Settles O52, by induction on the edges: each leaves the response where it is. -/
theorem responseStaysUntilTaken : Obligations.ResponseStaysUntilTaken := by
  intro n
  induction n with
  | zero =>
    intro s hp _
    exact ⟨s, rfl, hp, rfl, rfl, fun hr => s.rspPort_eq_some_iff _ |>.mpr ⟨hp, hr, rfl⟩⟩
  | succ n ih =>
    intro s hp hin
    obtain ⟨hr, hv⟩ := State.cycle_of_forall_mem_take ⟨rfl, rfl⟩ hin
    have hstep := step_of_done_waiting hr hp hv
    obtain ⟨t, hrun, hdone, hrsp, hinputs, hport⟩ := ih s.advance hp (forall_mem_take_of_step hstep hin)
    refine ⟨t, (run_succ hstep n).trans hrun, hdone, hrsp, ?_, hport⟩
    rw [hinputs, State.advance_inputs, List.drop_tail]

/-! ## What the host observes -/

theorem observe_succ {s t : State} (h : step s = .next t) (n : Nat) :
    observe (n + 1) s =
      (s.acceptedNow ++ (observe n t).1, s.takenNow ++ (observe n t).2.1, (observe n t).2.2) := by
  rw [observe, h]

theorem State.acceptedNow_of_offered {s : State} (hr : s.cycle.rst = false) (hp : s.phase = .idle)
    (hv : s.cycle.cmdValid = true) : s.acceptedNow = [s.cycle.cmd] := by
  simp [State.acceptedNow, State.cmdReady, hr, hp, hv]

theorem State.acceptedNow_of_not_offered {s : State} (h : s.cycle.cmdValid = false) :
    s.acceptedNow = [] := by
  simp [State.acceptedNow, h]

theorem State.acceptedNow_of_phase_ne {s : State} (h : s.phase ≠ .idle) : s.acceptedNow = [] :=
  acceptedNow_of_not_ready (cmdReady_of_phase_ne h)

theorem State.takenNow_of_ready {s : State} (hr : s.cycle.rst = false) (hp : s.phase = .done)
    (hv : s.cycle.rspReady = true) : s.takenNow = [s.lrsp] := by
  simp [State.takenNow, State.rspValid, hr, hp, hv]

theorem State.takenNow_of_waiting {s : State} (h : s.cycle.rspReady = false) : s.takenNow = [] := by
  simp [State.takenNow, h]

theorem State.takenNow_of_phase_ne {s : State} (h : s.phase ≠ .done) : s.takenNow = [] :=
  takenNow_of_not_valid (rspValid_of_phase_ne h)

theorem State.outstanding_of_idle {s : State} (h : s.phase = .idle) : s.outstanding = [] := by
  rw [State.outstanding, h]

theorem State.outstanding_of_busy {s : State} (h : s.phase = .busy) : s.outstanding = [respond s.lcmd] := by
  rw [State.outstanding, h]

theorem State.outstanding_of_done {s : State} (h : s.phase = .done) : s.outstanding = [respond s.lcmd] := by
  rw [State.outstanding, h]

/-- At one edge without reset, the responses owed before it and those to the commands it accepts are those
taken at it and owed after it. -/
theorem step_outstanding {s t : State} (hs : s.Consistent) (hr : s.cycle.rst = false)
    (h : step s = .next t) :
    s.outstanding ++ s.acceptedNow.map respond = s.takenNow ++ t.outstanding := by
  obtain ⟨-, hrst, -⟩ | ⟨-, -, hp, hv, rfl⟩ | ⟨-, -, hp, -, rfl⟩ | ⟨-, -, hp, -, rfl⟩ | ⟨-, -, hp, hv, rfl⟩ |
    ⟨-, -, rfl, ⟨hp, hv⟩ | ⟨hp, hv⟩⟩ := step_cases h
  · simp [hr] at hrst
  · rw [s.outstanding_of_idle hp, s.acceptedNow_of_offered hr hp hv, s.takenNow_of_phase_ne (by simp [hp]),
      State.outstanding_of_busy rfl]
    rfl
  · rw [s.outstanding_of_busy hp, s.acceptedNow_of_phase_ne (by simp [hp]),
      s.takenNow_of_phase_ne (by simp [hp]), State.outstanding_of_busy (s := s.advance.compute) hp]
    rfl
  · rw [s.outstanding_of_busy hp, s.acceptedNow_of_phase_ne (by simp [hp]),
      s.takenNow_of_phase_ne (by simp [hp]), State.outstanding_of_done rfl]
    rfl
  · rw [s.outstanding_of_done hp, s.acceptedNow_of_phase_ne (by simp [hp]), s.takenNow_of_ready hr hp hv,
      State.outstanding_of_idle rfl, hs hp]
    rfl
  · rw [s.outstanding_of_idle hp, s.acceptedNow_of_not_offered hv, s.takenNow_of_phase_ne (by simp [hp]),
      State.outstanding_of_idle (s := s.advance) hp]
    rfl
  · rw [s.outstanding_of_done hp, s.acceptedNow_of_phase_ne (by simp [hp]), s.takenNow_of_waiting hv,
      State.outstanding_of_done (s := s.advance) hp]
    rfl

/-- Settles O49, by induction on the edges. -/
theorem responsesAnswerCommandsInOrder : Obligations.ResponsesAnswerCommandsInOrder := by
  intro n
  induction n with
  | zero => intro s _ _; simp [observe]
  | succ n ih =>
    intro s hs hr
    obtain ⟨t, ht⟩ := exists_step_eq_next s
    have hcycle : s.cycle.rst = false := State.cycle_of_forall_mem_take (P := (·.rst = false)) rfl hr
    have htail := ih t (stepKeepsOfferedResponseRight s t hs ht) (forall_mem_take_of_step ht hr)
    rw [observe_succ ht, List.map_append, ← List.append_assoc, step_outstanding hs hcycle ht,
      List.append_assoc, htail, List.append_assoc]

/-- At one edge, with or without reset, nothing is taken or owed after it that was not owed before it or to a
command it accepts. -/
theorem step_outstanding_sublist {s t : State} (hs : s.Consistent) (h : step s = .next t) :
    List.Sublist (s.takenNow ++ t.outstanding) (s.outstanding ++ s.acceptedNow.map respond) := by
  cases hr : s.cycle.rst with
  | false => rw [step_outstanding hs hr h]
  | true =>
    rw [step_of_rst hr] at h
    cases h
    rw [State.takenNow_of_not_valid (State.rspValid_of_rst hr)]
    exact List.nil_sublist _

/-- Settles O50, by induction on the edges. -/
theorem resetOnlyDropsResponses : Obligations.ResetOnlyDropsResponses := by
  intro n
  induction n with
  | zero => intro s _; simp [observe]
  | succ n ih =>
    intro s hs
    obtain ⟨t, ht⟩ := exists_step_eq_next s
    have htail := ih t (stepKeepsOfferedResponseRight s t hs ht)
    rw [observe_succ ht, List.map_append, ← List.append_assoc]
    calc List.Sublist (s.takenNow ++ (observe n t).2.1 ++ (observe n t).2.2.outstanding)
          (s.takenNow ++ (t.outstanding ++ (observe n t).1.map respond)) := by
          rw [List.append_assoc]; exact htail.append_left _
      List.Sublist _ (s.outstanding ++ s.acceptedNow.map respond ++ (observe n t).1.map respond) := by
          rw [← List.append_assoc]; exact (step_outstanding_sublist hs ht).append_right _

/-! ## What no port shows (10_state.md R30, R31) -/

theorem SameVisible.cycle {s s' : State} (h : SameVisible s s') : s.cycle = s'.cycle := by
  obtain ⟨-, hinputs, -, -⟩ := h
  rw [State.cycle, State.cycle, hinputs]

theorem SameVisible.acceptedNow {s s' : State} (h : SameVisible s s') : s.acceptedNow = s'.acceptedNow := by
  have hcycle := h.cycle
  obtain ⟨hphase, -, -, -⟩ := h
  rw [State.acceptedNow, State.acceptedNow, State.cmdReady, State.cmdReady, hphase, hcycle]

theorem SameVisible.takenNow {s s' : State} (h : SameVisible s s') : s.takenNow = s'.takenNow := by
  have hcycle := h.cycle
  obtain ⟨hphase, -, -, hrsp⟩ := h
  by_cases hp : s.phase = .done
  · rw [State.takenNow, State.takenNow, State.rspValid, State.rspValid, hphase, hcycle, hrsp hp]
  · rw [s.takenNow_of_phase_ne hp, s'.takenNow_of_phase_ne (hphase ▸ hp)]

/-- The same move, made on two states that look the same, gives two states that look the same: a latch is
written from what they share before it is in use. -/
theorem SameVisible.step {s s' t : State} (h : SameVisible s s') (ht : step s = .next t) :
    ∃ t', step s' = .next t' ∧ SameVisible t t' := by
  have hcycle := h.cycle
  obtain ⟨hphase, hinputs, hcmd, hrsp⟩ := h
  have htail : s.inputs.tail = s'.inputs.tail := congrArg List.tail hinputs
  obtain ⟨-, hr, rfl⟩ | ⟨-, hr, hp, hv, rfl⟩ | ⟨-, hr, hp, hv, rfl⟩ | ⟨-, hr, hp, hv, rfl⟩ |
    ⟨-, hr, hp, hv, rfl⟩ | ⟨-, hr, rfl, ⟨hp, hv⟩ | ⟨hp, hv⟩⟩ := step_cases ht
  · exact ⟨_, step_of_rst (hcycle ▸ hr), rfl, htail, nofun, nofun⟩
  · exact ⟨_, step_of_idle_offered (hcycle ▸ hr) (hphase ▸ hp) (hcycle ▸ hv), rfl, htail,
      fun _ => congrArg Cycle.cmd hcycle, nofun⟩
  · exact ⟨_, step_of_busy_unsettled (hcycle ▸ hr) (hphase ▸ hp) (hcycle ▸ hv), hphase, htail, hcmd, hrsp⟩
  · exact ⟨_, step_of_busy_settled (hcycle ▸ hr) (hphase ▸ hp) (hcycle ▸ hv), rfl, htail, nofun,
      fun _ => congrArg respond (hcmd hp)⟩
  · exact ⟨_, step_of_done_taken (hcycle ▸ hr) (hphase ▸ hp) (hcycle ▸ hv), rfl, htail, nofun, nofun⟩
  · exact ⟨_, step_of_idle_quiet (hcycle ▸ hr) (hphase ▸ hp) (hcycle ▸ hv), hphase, htail, hcmd, hrsp⟩
  · exact ⟨_, step_of_done_waiting (hcycle ▸ hr) (hphase ▸ hp) (hcycle ▸ hv), hphase, htail, hcmd, hrsp⟩

/-- Settles O51, by induction on the edges. -/
theorem hiddenStateIsNeverObserved : Obligations.HiddenStateIsNeverObserved := by
  intro n
  induction n with
  | zero => exact fun s s' h => ⟨rfl, rfl, h⟩
  | succ n ih =>
    intro s s' h
    obtain ⟨t, ht⟩ := exists_step_eq_next s
    obtain ⟨t', ht', hvisible⟩ := h.step ht
    obtain ⟨haccepted, htaken, hlast⟩ := ih t t' hvisible
    rw [observe_succ ht, observe_succ ht', haccepted, htaken, h.acceptedNow, h.takenNow]
    exact ⟨rfl, rfl, hlast⟩

end Sys2Proof.Machine
end

section
/-! SUPPORT. Proofs of the statements of 40_u128.md on FROMBYTES (R80) and on the laws of the unit (R87). -/

namespace Sys2Proof.Machine

/-- Every instruction completes, and the latch holds its response. -/
theorem exists_exec_lrsp_eq {r : Response} (i : Instr) (s : State) (h : respondInstr i = r) :
    ∃ t, exec i s = .next t ∧ Completed s t ∧ t.lrsp = r :=
  ⟨_, exec_eq_next i s, completed_complete s _, h⟩

/-! ## FROMBYTES (40_u128.md R80) -/

theorem respondFromBytes_of_ne {len : Nat} (data : Lanes) (h : len ≠ 16) :
    respondFromBytes len data = raisedResponse .invalidLength := if_pos h

/-- Settles O1: the sequence read is the sixteen bytes, which the conversion reads word by word. -/
theorem fromBytesReadsSixteenBytesBigEndian : Obligations.FromBytesReadsSixteenBytesBigEndian := by
  refine ⟨decode_opcodeValue .fromBytes, ?_,
    fun len data s h => exists_exec_lrsp_eq _ s (respondFromBytes_of_ne data h)⟩
  rintro _ data s rfl
  have hlen : (data.toList.take 16).length = 16 := by simp [BUFLEN]
  have hhi := u128FromBytes_hi_toNat (data.toList.take 16)
  have hlo := u128FromBytes_lo_toNat hlen
  rw [List.take_take] at hhi
  rw [List.drop_take] at hlo
  exact ⟨_, exec_eq_next _ _, completed_complete _ _, u128FromBytes (data.toList.take 16), rfl, hhi, hlo,
    u128FromBytes_val hlen⟩

/-! ## The laws of the unit (40_u128.md R87) -/

theorem u128Sub_u128Add (x y : U128) : u128Sub (u128Add x y) y = x := by
  have hx := x.val_lt
  have hy := y.val_lt
  rw [← U128.val_inj, u128Sub_val, u128Add_val]
  omega

theorem u128Add_u128Sub (x y : U128) : u128Add (u128Sub x y) y = x := by
  have hx := x.val_lt
  have hy := y.val_lt
  rw [← U128.val_inj, u128Add_val, u128Sub_val]
  omega

/-- Settles O11: by value, where addition and subtraction modulo `2^128` undo each other and the order is
that of the numbers. -/
theorem u128LawsHold : Obligations.U128LawsHold := by
  refine ⟨u128Sub_u128Add, fun x => ⟨u128Sub_u128Add x _, u128Add_u128Sub x _⟩,
    fun x y => ⟨u128Compare_eq_equal_iff x y, ?_⟩, fun x y z hxy hyz => ?_, fun x => ⟨?_, ?_⟩⟩
  · rw [u128Compare_eq_less_iff, u128Compare_eq_greater_iff]
  · rw [u128Compare_eq_less_iff] at *
    exact hxy.trans hyz
  · rw [u128Compare_eq_equal_iff, u128Add_one_eq_zero_iff]
  · rw [u128Compare_eq_equal_iff, u128Sub_one_eq_max_iff]

end Sys2Proof.Machine
end

section
/-! SUPPORT. Proofs of the statements of 41_base62.md: the alphabet (R90 to R92), the repeated long division
(R94, R95, R97, R98), the two directions by value (R93, R96, R99), the order (R100) and the two commands
(R101, R102). -/

namespace Sys2Proof.Machine

/-! ## The alphabet (41_base62.md R91, R92) -/

/-- A character's digit value is below 62 and leads back to it: each range of digit values is one range of
characters, shifted. -/
theorem sym62_of_val62_eq_some {c : Byte} {v : Nat} (h : val62 c = some v) : v < 62 ∧ sym62 v = c := by
  have hc := c.isLt
  unfold val62 at h
  split_ifs at h with hdigit hupper hlower <;> cases h
  · refine ⟨by omega, BitVec.eq_of_toNat_eq ?_⟩
    rw [sym62, if_pos (by omega), toNat_ofNat_byte (by omega)]
    omega
  · refine ⟨by omega, BitVec.eq_of_toNat_eq ?_⟩
    rw [sym62, if_neg (by omega), if_pos (by omega), toNat_ofNat_byte (by omega)]
    omega
  · refine ⟨by omega, BitVec.eq_of_toNat_eq ?_⟩
    rw [sym62, if_neg (by omega), if_neg (by omega), toNat_ofNat_byte (by omega)]
    omega

/-- Settles O14: each mapping undoes the other, and the invalid lane values are counted. -/
theorem alphabetMappingsAreInverse : Obligations.AlphabetMappingsAreInverse :=
  ⟨fun _ => rfl, by decide +kernel, fun _ => val62_sym62, fun _ _ => sym62_of_val62_eq_some, rfl⟩

/-! ## One pass of the long division (41_base62.md R94) -/

/-- What a pass has of the digits it has read: the quotient by the divisor, in digits below the base with no
leading zero digit, and the remainder. -/
structure PassResult (base divisor : Nat) (ds : List Nat) (st : List Nat × Nat) : Prop where
  quotient : valueOfDigits base st.1 = valueOfDigits base ds / divisor
  remainder : st.2 = valueOfDigits base ds % divisor
  digits : ∀ q ∈ st.1, q < base
  noLeadingZero : st.1.head? ≠ some 0

/-- The next quotient digit is below the base, as the remainder is below the divisor. -/
theorem quotientDigit_lt {base divisor r d : Nat} (hr : r < divisor) (hd : d < base) :
    (r * base + d) / divisor < base := by
  rw [Nat.div_lt_iff_lt_mul (by omega)]
  calc r * base + d < (r + 1) * base := by rw [Nat.add_mul]; omega
    _ ≤ divisor * base := Nat.mul_le_mul_right _ hr
    _ = base * divisor := Nat.mul_comm _ _

/-- Long division, one digit: quotient and remainder so far, and one digit more, make up the next. -/
theorem div_mod_concat {divisor : Nat} (hdiv : 0 < divisor) (v base d : Nat) :
    (v * base + d) / divisor = v / divisor * base + (v % divisor * base + d) / divisor ∧
      (v * base + d) % divisor = (v % divisor * base + d) % divisor := by
  have hv : v * base + d = v % divisor * base + d + divisor * (v / divisor * base) := by
    conv_lhs => rw [← Nat.mod_add_div v divisor]
    ring
  rw [hv, Nat.add_mul_div_left _ _ hdiv, Nat.add_mul_mod_self_left, Nat.add_comm]
  exact ⟨rfl, rfl⟩

theorem PassResult.divideDigit {base divisor : Nat} {ds : List Nat} {st : List Nat × Nat} {d : Nat}
    (hdiv : 0 < divisor) (h : PassResult base divisor ds st) (hd : d < base) :
    PassResult base divisor (ds ++ [d]) (divideDigit base divisor st d) := by
  obtain ⟨qs, r⟩ := st
  obtain ⟨hquot, hrem, hdigits, hhead⟩ := h
  obtain ⟨hdivConcat, hmodConcat⟩ := div_mod_concat hdiv (valueOfDigits base ds) base d
  have hr : r < divisor := hrem.trans_lt (Nat.mod_lt _ hdiv)
  rw [← show r = _ from hrem] at hdivConcat hmodConcat
  have hq := quotientDigit_lt hr hd
  unfold Machine.divideDigit
  split_ifs with hwrite
  · refine ⟨?_, by rw [valueOfDigits_concat, hmodConcat], ?_, ?_⟩
    · rw [valueOfDigits_concat, valueOfDigits_concat, hquot, hdivConcat]
    · simpa [or_imp, forall_and] using ⟨hdigits, hq⟩
    · cases qs with
      | nil => simpa using hwrite
      | cons q qs => exact hhead
  · obtain ⟨rfl, hzero⟩ : qs = [] ∧ (r * base + d) / divisor = 0 := by
      rwa [not_or, not_not, not_not] at hwrite
    refine ⟨?_, by rw [valueOfDigits_concat, hmodConcat], hdigits, hhead⟩
    rw [valueOfDigits_concat, hdivConcat, hzero, ← hquot]
    simp

/-- A pass divides, by induction on the digits read. -/
theorem dividePass_result {base divisor : Nat} (hdiv : 0 < divisor) {ds : List Nat}
    (h : ∀ d ∈ ds, d < base) : PassResult base divisor ds (dividePass base divisor ds) := by
  induction ds using List.reverseRecOn with
  | nil => exact ⟨by simp [dividePass], by simp [dividePass], by simp [dividePass], by simp [dividePass]⟩
  | append_singleton ds d ih =>
    rw [dividePass, List.foldl_append]
    exact (ih fun x hx => h x (by simp [hx])).divideDigit hdiv (h d (by simp))

/-- Settles O15: the parts of what a pass has of all its digits. -/
theorem longDivisionPassDivides : Obligations.LongDivisionPassDivides := by
  intro base divisor ds hdiv h
  obtain ⟨hquot, hrem, hdigits, hhead⟩ := dividePass_result hdiv h
  exact ⟨hquot, hrem, hdigits, hhead⟩

/-! ## The passes (41_base62.md R95, R98) -/

/-- A digit sequence that starts with a digit other than zero has a value. -/
theorem valueOfDigits_pos {base d : Nat} {ds : List Nat} (hd : d < base) (h : (d :: ds).head? ≠ some 0) :
    0 < valueOfDigits base (d :: ds) := by
  have hd0 : 0 < d := Nat.pos_of_ne_zero (by simpa using h)
  rw [valueOfDigits_cons]
  exact Nat.add_pos_left (Nat.mul_pos hd0 (Nat.pow_pos (by omega))) _

theorem digitsOfValue_of_zero (base n : Nat) : digitsOfValue base n 0 = List.replicate n 0 := by
  simp [digitsOfValue, List.map_const']

/-- The passes write the digits of the dividend's value, the last first, exactly when it fits the positions
left. Each pass writes the remainder and leaves the quotient. -/
theorem convertLoop_eq {base divisor : Nat} (hdiv : 0 < divisor) (pos : Nat) {ds : List Nat} (out : List Nat)
    (h : ∀ d ∈ ds, d < base) (hhead : ds.head? ≠ some 0) :
    convertLoop base divisor pos ds out =
      if valueOfDigits base ds < divisor ^ pos then
        some (digitsOfValue divisor pos (valueOfDigits base ds) ++ out)
      else none := by
  induction pos generalizing ds out with
  | zero =>
    cases ds with
    | nil => rfl
    | cons d ds =>
      have hpos := valueOfDigits_pos (h d (by simp)) hhead
      rw [convertLoop, if_neg (by rw [pow_zero]; omega)]
  | succ pos ih =>
    cases ds with
    | nil => rw [convertLoop, valueOfDigits_nil, if_pos (Nat.pow_pos hdiv), digitsOfValue_of_zero]
    | cons d ds =>
      obtain ⟨hquot, hrem, hdigits, hhead'⟩ := dividePass_result hdiv h
      have hfit := Nat.div_lt_iff_lt_mul (x := valueOfDigits base (d :: ds)) (y := divisor ^ pos) hdiv
      rw [← Nat.pow_succ] at hfit
      rw [convertLoop, ih _ hdigits hhead', hquot, hrem, digitsOfValue_succ, List.append_assoc,
        List.singleton_append]
      exact if_congr hfit rfl rfl

/-- Leading zero digits count nothing. -/
theorem valueOfDigits_dropWhile (base : Nat) (ds : List Nat) :
    valueOfDigits base (ds.dropWhile fun d => d == 0) = valueOfDigits base ds := by
  induction ds with
  | nil => rfl
  | cons d ds ih =>
    cases d with
    | zero => simpa [valueOfDigits_cons] using ih
    | succ d => rfl

theorem head?_dropWhile_ne_zero (ds : List Nat) : (ds.dropWhile fun d => d == 0).head? ≠ some 0 := by
  induction ds with
  | nil => simp
  | cons d ds ih =>
    cases d with
    | zero => exact ih
    | succ d => simp

/-- The unit's conversion is the conversion by value. -/
theorem convertDigits_eq {base divisor : Nat} (hdiv : 0 < divisor) {ds : List Nat} (h : ∀ d ∈ ds, d < base)
    (n : Nat) : convertDigits base divisor ds n =
      if valueOfDigits base ds < divisor ^ n then some (digitsOfValue divisor n (valueOfDigits base ds))
      else none := by
  have hdigits : ∀ d ∈ ds.dropWhile fun d => d == 0, d < base :=
    fun d hd => h d (List.dropWhile_subset _ hd)
  rw [convertDigits, convertLoop_eq hdiv n [] hdigits (head?_dropWhile_ne_zero ds), valueOfDigits_dropWhile,
    List.append_nil]

/-- Settles O16: bytes are digits below 256. -/
theorem encodeAlgorithmEqualsEncodeByValue : Obligations.EncodeAlgorithmEqualsEncodeByValue := by
  intro s W
  rw [b62EncodeAlg, b62Encode, convertDigits_eq (by decide) (toNat_lt_256 s), ← be]
  by_cases h : be s < 62 ^ W
  · rw [if_pos h, if_neg h.not_ge]
  · rw [if_neg h, if_pos (by omega)]

/-! ## Strings (41_base62.md R96) -/

/-- The digit value of a character, 0 where a lane holds none. -/
def digitValue (x : Byte) : Nat := (val62 x).getD 0

theorem stringValue_eq (u : List Byte) : stringValue u = valueOfDigits 62 (u.map digitValue) := rfl

theorem digitValue_lt (x : Byte) : digitValue x < 62 := by
  unfold digitValue
  cases h : val62 x with
  | none => decide
  | some v => exact (sym62_of_val62_eq_some h).1

theorem digitValue_mem_lt (u : List Byte) : ∀ d ∈ u.map digitValue, d < 62 := by
  intro d hd
  obtain ⟨x, -, rfl⟩ := List.mem_map.mp hd
  exact digitValue_lt x

theorem val62_eq_some_digitValue {x : Byte} (h : (val62 x).isSome) : val62 x = some (digitValue x) := by
  obtain ⟨v, hv⟩ := Option.isSome_iff_exists.mp h
  rw [digitValue, hv, Option.getD_some]

theorem sym62_digitValue {x : Byte} (h : (val62 x).isSome) : sym62 (digitValue x) = x :=
  (sym62_of_val62_eq_some (val62_eq_some_digitValue h)).2

/-- A string has its digit values exactly when every lane holds a character. -/
theorem digitsOfString_eq (u : List Byte) :
    digitsOfString u = if AllCharacters u then some (u.map digitValue) else none := by
  induction u with
  | nil => rfl
  | cons x u ih =>
    have hcons : AllCharacters (x :: u) ↔ (val62 x).isSome ∧ AllCharacters u := List.forall_mem_cons
    rw [digitsOfString, ih]
    by_cases hx : (val62 x).isSome
    · by_cases hu : AllCharacters u
      · rw [if_pos hu, if_pos (hcons.mpr ⟨hx, hu⟩), val62_eq_some_digitValue hx]
        rfl
      · rw [if_neg hu, if_neg fun h => hu (hcons.mp h).2]
        cases val62 x <;> rfl
    · rw [if_neg fun h => hx (hcons.mp h).1, Option.not_isSome_iff_eq_none.mp hx]

theorem b62Decode_of_not_allCharacters {u : List Byte} (N : Nat) (h : ¬AllCharacters u) :
    b62Decode u N = .error .invalidCharacter := by
  rw [b62Decode, digitsOfString_eq, if_neg h]

theorem b62Decode_of_allCharacters {u : List Byte} (N : Nat) (h : AllCharacters u) :
    b62Decode u N = if 256 ^ N ≤ stringValue u then .error .decodingOverflow
      else .ok (bytesOf N (stringValue u)) := by
  rw [b62Decode, digitsOfString_eq, if_pos h]
  rfl

/-- Settles O17: digit values of characters are below 62, and a string with another lane value is refused by
both. -/
theorem decodeAlgorithmEqualsDecodeByValue : Obligations.DecodeAlgorithmEqualsDecodeByValue := by
  intro u N
  by_cases h : AllCharacters u
  · rw [b62DecodeAlg, b62Decode_of_allCharacters N h, digitsOfString_eq, if_pos h]
    dsimp only
    rw [convertDigits_eq (by decide) (digitValue_mem_lt u), ← stringValue_eq]
    by_cases hfit : stringValue u < 256 ^ N
    · rw [if_pos hfit, if_neg hfit.not_ge, bytesOf]
    · rw [if_neg hfit, if_pos (by omega)]
  · rw [b62DecodeAlg, b62Decode_of_not_allCharacters N h, digitsOfString_eq, if_neg h]

/-! ## The two directions by value (41_base62.md R99) -/

theorem stringValue_lt (u : List Byte) : stringValue u < 62 ^ u.length := by
  simpa [stringValue_eq] using valueOfDigits_lt (digitValue_mem_lt u)

/-- Strings of characters, of one length and one value, are equal. -/
theorem stringValue_injective {u v : List Byte} (hu : AllCharacters u) (hv : AllCharacters v)
    (hlen : u.length = v.length) (h : stringValue u = stringValue v) : u = v := by
  have numeral {w : List Byte} (hw : AllCharacters w) :
      (digitsOfValue 62 w.length (stringValue w)).map sym62 = w := by
    have hdigits := digitsOfValue_valueOfDigits (digitValue_mem_lt w)
    rw [List.length_map] at hdigits
    rw [stringValue_eq, hdigits, List.map_map]
    exact (List.map_congr_left fun x hx => sym62_digitValue (hw x hx)).trans (List.map_id w)
  rw [← numeral hu, ← numeral hv, hlen, h]

/-- The encoding is the string of the width asked for with the value of the bytes. -/
theorem b62Encode_eq_ok_iff {s u : List Byte} {W : Nat} :
    b62Encode s W = .ok u ↔ u.length = W ∧ AllCharacters u ∧ stringValue u = be s := by
  constructor
  · intro h
    have hfits : be s < 62 ^ W := by
      by_contra hover
      rw [b62Encode, if_pos (by omega)] at h
      cases h
    obtain ⟨u', h', hu'⟩ := exists_b62Encode_eq_ok hfits
    cases h.symm.trans h'
    exact hu'
  · rintro ⟨rfl, hchars, hvalue⟩
    obtain ⟨u', h', hlen', hchars', hvalue'⟩ := exists_b62Encode_eq_ok (hvalue ▸ stringValue_lt u)
    rw [h', stringValue_injective hchars' hchars hlen' (hvalue'.trans hvalue.symm)]

/-- The decoding is the byte sequence of the width asked for with the value of the string. -/
theorem b62Decode_eq_ok_iff {u s : List Byte} {N : Nat} :
    b62Decode u N = .ok s ↔ AllCharacters u ∧ s.length = N ∧ be s = stringValue u := by
  by_cases hchars : AllCharacters u
  · rw [b62Decode_of_allCharacters N hchars]
    split_ifs with hover
    · refine ⟨nofun, fun ⟨_, hlen, hvalue⟩ => ?_⟩
      have hlt := be_lt s
      rw [hlen, hvalue] at hlt
      omega
    · constructor
      · rintro ⟨⟩
        refine ⟨hchars, bytesOf_length _ _, ?_⟩
        rw [be_bytesOf, Nat.mod_eq_of_lt (by omega)]
      · rintro ⟨-, rfl, hvalue⟩
        rw [← hvalue, bytesOf_be]
  · rw [b62Decode_of_not_allCharacters N hchars]
    exact ⟨nofun, fun h => absurd h.1 hchars⟩

/-- Settles O18: either direction asks for one value on both sides. -/
theorem b62DirectionsAreInverse : Obligations.B62DirectionsAreInverse := by
  have decode_encode {s t : List Byte} {W : Nat} (h : b62Encode s W = .ok t) :
      b62Decode t s.length = .ok s := by
    obtain ⟨-, hchars, hvalue⟩ := b62Encode_eq_ok_iff.mp h
    exact b62Decode_eq_ok_iff.mpr ⟨hchars, rfl, hvalue.symm⟩
  refine ⟨fun _ _ _ => decode_encode, fun u s N h => ?_, fun s hlen => ?_⟩
  · obtain ⟨hchars, -, hvalue⟩ := b62Decode_eq_ok_iff.mp h
    exact b62Encode_eq_ok_iff.mpr ⟨rfl, hchars, hvalue.symm⟩
  · have hfits : be s < 62 ^ 27 := by
      calc be s < 256 ^ s.length := be_lt s
        _ = 256 ^ 20 := by rw [hlen]
        _ < 62 ^ 27 := by norm_num
    obtain ⟨t, henc, htlen, -⟩ := exists_b62Encode_eq_ok hfits
    exact ⟨t, henc, htlen, hlen ▸ decode_encode henc⟩

/-! ## Order (41_base62.md R100) -/

/-- Of two numbers in a base the greater first digit makes the greater; equal ones leave it to the rest. -/
theorem digit_add_lt_iff {B d e x y : Nat} (hx : x < B) (hy : y < B) :
    d * B + x < e * B + y ↔ d < e ∨ d = e ∧ x < y := by
  obtain hlt | rfl | hgt := Nat.lt_trichotomy d e
  · have hle : (d + 1) * B ≤ e * B := Nat.mul_le_mul_right B hlt
    rw [Nat.add_mul] at hle
    omega
  · omega
  · have hle : (e + 1) * B ≤ d * B := Nat.mul_le_mul_right B hgt
    rw [Nat.add_mul] at hle
    omega

/-- Lexicographic order on sequences of one length is the order of the values, when each element has a digit
and greater elements have greater digits. -/
theorem lt_iff_valueOfDigits_lt {base : Nat} {f : Byte → Nat} {P : Byte → Prop}
    (hdigit : ∀ x, f x < base) (hmono : ∀ x y, P x → P y → (x < y ↔ f x < f y)) :
    ∀ {u v : List Byte}, u.length = v.length → (∀ x ∈ u, P x) → (∀ x ∈ v, P x) →
      (u < v ↔ valueOfDigits base (u.map f) < valueOfDigits base (v.map f))
  | [], [], _, _, _ => by simp
  | [], _ :: _, h, _, _ => by simp at h
  | _ :: _, [], h, _, _ => by simp at h
  | x :: u, y :: v, h, hu, hv => by
    obtain ⟨hx, hu⟩ := List.forall_mem_cons.mp hu
    obtain ⟨hy, hv⟩ := List.forall_mem_cons.mp hv
    have hlen : u.length = v.length := by simpa using h
    have value_lt (w : List Byte) : valueOfDigits base (w.map f) < base ^ w.length := by
      simpa using valueOfDigits_lt (ds := w.map f) (by simpa using fun x _ => hdigit x)
    have heq : x = y ↔ f x = f y := by
      have h₁ := hmono x y hx hy
      have h₂ := hmono y x hy hx
      refine ⟨congrArg f, fun hf => BitVec.eq_of_toNat_eq ?_⟩
      rw [BitVec.lt_def] at h₁ h₂
      omega
    rw [List.cons_lt_cons_iff, lt_iff_valueOfDigits_lt hdigit hmono hlen hu hv, hmono x y hx hy, heq,
      List.map_cons, List.map_cons, valueOfDigits_cons, valueOfDigits_cons, List.length_map, List.length_map,
      hlen, digit_add_lt_iff (hlen ▸ value_lt u) (value_lt v)]

/-- The order of characters' codes is that of their digit values: within a range both grow together, and the
three ranges are in the same order. -/
theorem lt_iff_digitValue_lt {x y : Byte} (hx : (val62 x).isSome) (hy : (val62 y).isSome) :
    x < y ↔ digitValue x < digitValue y := by
  have hx' := val62_eq_some_digitValue hx
  have hy' := val62_eq_some_digitValue hy
  rw [BitVec.lt_def]
  unfold val62 at hx' hy'
  split_ifs at hx' hy' <;> rw [Option.some.injEq] at hx' hy' <;> omega

theorem lt_iff_stringValue_lt {u v : List Byte} (hlen : u.length = v.length) (hu : AllCharacters u)
    (hv : AllCharacters v) : u < v ↔ stringValue u < stringValue v :=
  lt_iff_valueOfDigits_lt digitValue_lt (fun _ _ => lt_iff_digitValue_lt) hlen hu hv

theorem lt_iff_be_lt {s t : List Byte} (hlen : s.length = t.length) : s < t ↔ be s < be t :=
  lt_iff_valueOfDigits_lt (P := fun _ => True) (fun x => x.isLt) (fun _ _ _ _ => BitVec.lt_def) hlen
    (fun _ _ => trivial) fun _ _ => trivial

/-- Settles O19: both orders are the order of the values, and the encoder keeps the value. -/
theorem encodingKeepsLexicographicOrder : Obligations.EncodingKeepsLexicographicOrder := by
  refine ⟨fun u v => lt_iff_stringValue_lt, fun s t => lt_iff_be_lt, fun s t u v W hlen hu hv => ?_⟩
  obtain ⟨hulen, huchars, huvalue⟩ := b62Encode_eq_ok_iff.mp hu
  obtain ⟨hvlen, hvchars, hvvalue⟩ := b62Encode_eq_ok_iff.mp hv
  rw [lt_iff_be_lt hlen, lt_iff_stringValue_lt (hulen.trans hvlen.symm) huchars hvchars, huvalue, hvvalue]

end Sys2Proof.Machine
end

section
/-! SUPPORT. Proofs of the statements of 41_base62.md section 5 on the two commands of the B62 unit: B62ENC
(R101) and B62DEC (R102). -/

namespace Sys2Proof.Machine

theorem lengths_in_range {len wout : Nat} (hlen : len ≤ BUFLEN) (hwout : wout ≤ BUFLEN) :
    ¬(BUFLEN < len ∨ BUFLEN < wout) := by omega

/-- A sequence returned is in the first lanes, and the lanes above it are zero. -/
theorem exists_exec_sequence {P : List Byte → Prop} (i : Instr) (s : State) {l : List Byte} {n : Nat}
    (hresp : respondInstr i = sequenceResponse l) (hlen : l.length = n) (hn : n ≤ BUFLEN) (h : P l) :
    ∃ t, exec i s = .next t ∧ Completed s t ∧
      ∃ v : Lanes, t.lrsp = { Response.zero with rlen := BitVec.ofNat 6 n, rdata := v } ∧
        P (v.toList.take n) ∧ ∀ (i : Nat) (hi : i < BUFLEN), n ≤ i → v[i] = 0#8 := by
  refine ⟨_, exec_eq_next i s, completed_complete s _, lanesOfList l, ?_, ?_, fun i hi hle => ?_⟩
  · exact hresp.trans (sequenceResponse_eq hlen)
  · rwa [take_toList_lanesOfList hlen hn]
  · exact lanesOfList_getElem_of_le hi (hlen.trans_le hle)

/-! ## B62ENC (41_base62.md R101) -/

theorem respondB62Enc_of_length {len wout : Nat} (data : Lanes) (h : BUFLEN < len ∨ BUFLEN < wout) :
    respondB62Enc len wout data = raisedResponse .invalidLength := if_pos h

theorem respondB62Enc_of_encode {len wout : Nat} (data : Lanes) (hlen : len ≤ BUFLEN) (hwout : wout ≤ BUFLEN)
    {x : Except Status (List Byte)} (h : b62Encode (data.toList.take len) wout = x) :
    respondB62Enc len wout data = responseOr x sequenceResponse := by
  rw [respondB62Enc, if_neg (lengths_in_range hlen hwout), inputSequence, h]

/-- Settles O12: past the lengths the response is the encoder's answer, which is the numeral when the value
fits. -/
theorem b62EncWritesTheNumeralOfTheValue : Obligations.B62EncWritesTheNumeralOfTheValue := by
  refine ⟨decode_opcodeValue .b62Enc, fun len wout data s hlen hwout hfits => ?_,
    fun len wout data s h => exists_exec_lrsp_eq _ s (respondB62Enc_of_length data h),
    fun len wout data s hlen hwout hover =>
      exists_exec_lrsp_eq _ s (respondB62Enc_of_encode data hlen hwout (if_pos hover))⟩
  obtain ⟨u, henc, hulen, hchars, hvalue⟩ := exists_b62Encode_eq_ok hfits
  simpa only [and_assoc] using exists_exec_sequence
    (P := fun l => AllCharacters l ∧ stringValue l = be (data.toList.take len)) (.b62Enc len wout data) s
    (respondB62Enc_of_encode data hlen hwout henc) hulen hwout ⟨hchars, hvalue⟩

/-! ## B62DEC (41_base62.md R102) -/

theorem respondB62Dec_of_length {len wout : Nat} (data : Lanes) (h : BUFLEN < len ∨ BUFLEN < wout) :
    respondB62Dec len wout data = raisedResponse .invalidLength := if_pos h

theorem respondB62Dec_of_decode {len wout : Nat} (data : Lanes) (hlen : len ≤ BUFLEN) (hwout : wout ≤ BUFLEN)
    {x : Except Status (List Byte)} (h : b62Decode (data.toList.take len) wout = x) :
    respondB62Dec len wout data = responseOr x sequenceResponse := by
  rw [respondB62Dec, if_neg (lengths_in_range hlen hwout), inputSequence, h]

theorem b62Decode_of_overflow {u : List Byte} {N : Nat} (hchars : AllCharacters u)
    (hover : 256 ^ N ≤ stringValue u) : b62Decode u N = .error .decodingOverflow := by
  rw [b62Decode_of_allCharacters N hchars, if_pos hover]

/-- A string of characters with a value below `256^N` has its `N` bytes, and the decoder gives them
(41_base62.md R96). -/
theorem exists_b62Decode_eq_ok {u : List Byte} {N : Nat} (hchars : AllCharacters u)
    (hfits : stringValue u < 256 ^ N) :
    ∃ s, b62Decode u N = .ok s ∧ s.length = N ∧ be s = stringValue u :=
  ⟨_, by rw [b62Decode_of_allCharacters N hchars, if_neg hfits.not_ge], bytesOf_length _ _,
    by rw [be_bytesOf, Nat.mod_eq_of_lt hfits]⟩

/-- Settles O13: past the lengths the response is the decoder's answer, which looks at the characters before
the value. -/
theorem b62DecWritesTheBytesOfTheValue : Obligations.B62DecWritesTheBytesOfTheValue := by
  refine ⟨decode_opcodeValue .b62Dec, fun len wout data s hlen hwout hchars hfits => ?_,
    fun len wout data s h => exists_exec_lrsp_eq _ s (respondB62Dec_of_length data h),
    fun len wout data s hlen hwout hchars => exists_exec_lrsp_eq _ s
      (respondB62Dec_of_decode data hlen hwout (b62Decode_of_not_allCharacters wout hchars)),
    fun len wout data s hlen hwout hchars hover => exists_exec_lrsp_eq _ s
      (respondB62Dec_of_decode data hlen hwout (b62Decode_of_overflow hchars hover))⟩
  obtain ⟨b, hdec, hblen, hvalue⟩ := exists_b62Decode_eq_ok hchars hfits
  exact exists_exec_sequence (P := fun l => be l = stringValue (data.toList.take len))
    (.b62Dec len wout data) s (respondB62Dec_of_decode data hlen hwout hdec) hblen hwout hvalue

end Sys2Proof.Machine
end

section
/-! SUPPORT. Proofs of the statements of 42_ksuid.md: the text form and its parts (R114, R115, R126, R129),
stepping (R116 to R118, R127) and the commands KSPLIT, KPARSE, KNEXT and KPREV (R121, R123 to R125). Every
function of the unit is said once by the 160-bit value, and argued about there. -/

namespace Sys2Proof.Machine

/-! ## The 160-bit value (42_ksuid.md R110) -/

/-- KSUIDs compare by timestamp and then by payload. -/
theorem ksuidValue_lt_iff (ts ts' : Timestamp) (p p' : U128) :
    ksuidValue ts p < ksuidValue ts' p' ↔ ts < ts' ∨ (ts = ts' ∧ u128Compare p p' = .less) := by
  rw [u128Compare_eq_less_iff, BitVec.lt_def, ← BitVec.toNat_inj]
  exact digit_add_lt_iff p.val_lt p'.val_lt

/-! ## KSPLIT (42_ksuid.md R121) -/

theorem ksuidSplit_snd_val {w : List Byte} (h : w.length = 20) : (ksuidSplit w).2.val = be (w.drop 4) := by
  rw [ksuidSplit_snd, u128FromBytes_val (by simp [h])]

/-- The parts of a wire form have its value. -/
theorem ksuidValue_ksuidSplit {w : List Byte} (h : w.length = 20) :
    ksuidValue (ksuidSplit w).1 (ksuidSplit w).2 = be w := by
  rw [← be_ksuidCat, ksuidCat_ksuidSplit h]

theorem respondKSplit_of_ne {len : Nat} (data : Lanes) (h : len ≠ 20) :
    respondKSplit len data = raisedResponse .invalidLength := if_pos h

/-- Settles O21: the sequence read is the wire form, and each part has the value of its bytes. -/
theorem kSplitReadsTheWireForm : Obligations.KSplitReadsTheWireForm := by
  refine ⟨decode_opcodeValue .kSplit, ?_,
    fun len data s h => exists_exec_lrsp_eq _ s (respondKSplit_of_ne data h)⟩
  rintro _ data s rfl
  have hlen : (data.toList.take 20).length = 20 := by simp [BUFLEN]
  have hts := ksuidSplit_fst_toNat (data.toList.take 20)
  have hp := ksuidSplit_snd_val hlen
  rw [List.take_take] at hts
  rw [List.drop_take] at hp
  exact ⟨_, exec_eq_next _ _, completed_complete _ _, (ksuidSplit (data.toList.take 20)).1,
    (ksuidSplit (data.toList.take 20)).2, rfl, hts, hp, ksuidValue_ksuidSplit hlen⟩

/-! ## The text form (42_ksuid.md R114, R115, R129) -/

/-- A string is the text form of a KSUID: 27 characters with the KSUID's value. -/
structure IsTextForm (ts : Timestamp) (p : U128) (u : List Byte) : Prop where
  length : u.length = 27
  characters : AllCharacters u
  value : stringValue u = ksuidValue ts p

theorem ksuidGenerate_eq_ok_iff {ts : Timestamp} {p : U128} {u : List Byte} :
    ksuidGenerate ts p = .ok u ↔ IsTextForm ts p u := by
  rw [ksuidGenerate, b62Encode_eq_ok_iff, be_ksuidCat]
  exact ⟨fun ⟨hlen, hchars, hvalue⟩ => ⟨hlen, hchars, hvalue⟩,
    fun ⟨hlen, hchars, hvalue⟩ => ⟨hlen, hchars, hvalue⟩⟩

theorem ksuidParse_of_length {u : List Byte} (h : u.length = 27) :
    ksuidParse u = (b62Decode u 20).map ksuidSplit := if_neg (not_not.mpr h)

/-- The parts parsed are those of the one KSUID whose text form the string is. -/
theorem ksuidParse_eq_ok_iff {ts : Timestamp} {p : U128} {u : List Byte} :
    ksuidParse u = .ok (ts, p) ↔ IsTextForm ts p u := by
  by_cases hlen : u.length = 27
  · rw [ksuidParse_of_length hlen]
    constructor
    · intro h
      cases hdec : b62Decode u 20 with
      | error S => rw [hdec] at h; cases h
      | ok w =>
        rw [hdec] at h
        obtain ⟨hchars, hwlen, hvalue⟩ := b62Decode_eq_ok_iff.mp hdec
        have hsplit : ksuidSplit w = (ts, p) := Except.ok.inj h
        have hksuid := ksuidValue_ksuidSplit hwlen
        rw [hsplit, hvalue] at hksuid
        exact ⟨hlen, hchars, hksuid.symm⟩
    · rintro ⟨-, hchars, hvalue⟩
      have hdec : b62Decode u 20 = .ok (ksuidCat ts p) :=
        b62Decode_eq_ok_iff.mpr ⟨hchars, ksuidCat_length ts p, by rw [be_ksuidCat, hvalue]⟩
      rw [hdec]
      exact congrArg Except.ok (ksuidSplit_ksuidCat ts p)
  · rw [ksuidParse, if_pos hlen]
    exact ⟨nofun, fun h => absurd h.length hlen⟩

theorem IsTextForm.valid {ts : Timestamp} {p : U128} {u : List Byte} (h : IsTextForm ts p u) :
    ValidKsuidString u :=
  ⟨h.length, h.characters, h.value ▸ ksuidValue_lt ts p⟩

/-- A valid KSUID string is determined by its value. -/
theorem ValidKsuidString.eq_of_stringValue {u v : List Byte} (hu : ValidKsuidString u)
    (hv : ValidKsuidString v) (h : stringValue u = stringValue v) : u = v := by
  obtain ⟨hlen, hchars, -⟩ := hu
  obtain ⟨hlen', hchars', -⟩ := hv
  exact stringValue_injective hchars hchars' (hlen.trans hlen'.symm) h

theorem ValidKsuidString.lt_iff {u v : List Byte} (hu : ValidKsuidString u) (hv : ValidKsuidString v) :
    u < v ↔ stringValue u < stringValue v := by
  obtain ⟨hlen, hchars, -⟩ := hu
  obtain ⟨hlen', hchars', -⟩ := hv
  exact lt_iff_stringValue_lt (hlen.trans hlen'.symm) hchars hchars'

theorem exists_isTextForm (ts : Timestamp) (p : U128) : ∃ u, IsTextForm ts p u := by
  obtain ⟨u, hgen, -⟩ := exists_ksuidGenerate_eq_ok ts p
  exact ⟨u, ksuidGenerate_eq_ok_iff.mp hgen⟩

/-- Every valid KSUID string is the text form of the KSUID whose wire form has its value. -/
theorem exists_isTextForm_of_valid {u : List Byte} (h : ValidKsuidString u) :
    ∃ ts p, IsTextForm ts p u := by
  obtain ⟨hlen, hchars, hvalue⟩ := h
  refine ⟨(ksuidSplit (bytesOf 20 (stringValue u))).1, (ksuidSplit (bytesOf 20 (stringValue u))).2,
    hlen, hchars, ?_⟩
  rw [ksuidValue_ksuidSplit (bytesOf_length _ _), be_bytesOf]
  exact (Nat.mod_eq_of_lt (hvalue.trans_eq (by norm_num))).symm

/-- Settles O30: both directions ask for the same, that the string is the text form of the KSUID. -/
theorem textFormIsABijection : Obligations.TextFormIsABijection := by
  refine ⟨fun ts p => ?_, fun u hu => ?_, fun u hu ts p h => hu (ksuidGenerate_eq_ok_iff.mp h).valid⟩
  · obtain ⟨u, hform⟩ := exists_isTextForm ts p
    exact ⟨u, ksuidGenerate_eq_ok_iff.mpr hform, hform.valid, ksuidParse_eq_ok_iff.mpr hform⟩
  · obtain ⟨ts, p, hform⟩ := exists_isTextForm_of_valid hu
    exact ⟨ts, p, ksuidParse_eq_ok_iff.mpr hform, ksuidGenerate_eq_ok_iff.mpr hform⟩

/-- Settles O28: text forms and wire forms have the 160-bit value and sort by it. -/
theorem ksuidsSortAsTheirTexts : Obligations.KsuidsSortAsTheirTexts := by
  intro ts ts' p p' t t' ht ht'
  have hform := ksuidGenerate_eq_ok_iff.mp ht
  have hform' := ksuidGenerate_eq_ok_iff.mp ht'
  refine ⟨?_, ?_, ksuidValue_lt_iff ts ts' p p'⟩
  · rw [hform.valid.lt_iff hform'.valid, hform.value, hform'.value]
  · rw [lt_iff_be_lt (by simp), be_ksuidCat, be_ksuidCat]

/-- Settles O31: four text forms, evaluated. -/
theorem boundaryTextForms : Obligations.BoundaryTextForms := by
  refine fun s => ⟨⟨_, exec_eq_next _ _, ?_⟩, ⟨_, exec_eq_next _ _, ?_⟩, ⟨_, exec_eq_next _ _, ?_⟩,
    ⟨_, exec_eq_next _ _, ?_⟩⟩ <;> rw [State.complete_lrsp] <;> decide +kernel

/-! ## Stepping (42_ksuid.md R116 to R118) -/

theorem stepUp_snd_val (k : Timestamp × U128) : (stepUp k).2.val = (k.2.val + 1) % 2 ^ 128 :=
  u128Add_val k.2 .one

theorem stepUp_fst_toNat (k : Timestamp × U128) :
    (stepUp k).1.toNat = if k.2 = U128.max then (k.1.toNat + 1) % 2 ^ 32 else k.1.toNat := by
  simp only [stepUp, u128Compare_eq_equal_iff, u128Add_one_eq_zero_iff]
  split_ifs
  · rw [BitVec.toNat_add]; rfl
  · rfl

theorem stepDown_snd_val (k : Timestamp × U128) :
    (stepDown k).2.val = (k.2.val + (2 ^ 128 - 1)) % 2 ^ 128 :=
  u128Sub_one_val k.2

theorem stepDown_fst_toNat (k : Timestamp × U128) :
    (stepDown k).1.toNat =
      if k.2 = U128.zero then (k.1.toNat + (2 ^ 32 - 1)) % 2 ^ 32 else k.1.toNat := by
  simp only [stepDown, u128Compare_eq_equal_iff, u128Sub_one_eq_max_iff]
  split_ifs
  · rw [BitVec.toNat_sub, Nat.add_comm]; rfl
  · rfl

/-- Settles O27: the tests for a wrapped payload are exact. -/
theorem steppingCarriesIntoTheTimestamp : Obligations.SteppingCarriesIntoTheTimestamp :=
  ⟨fun ts p => ⟨stepUp_snd_val (ts, p), stepUp_fst_toNat (ts, p)⟩,
    fun ts p => ⟨stepDown_snd_val (ts, p), stepDown_fst_toNat (ts, p)⟩⟩

/-- The payload's carry makes stepping up add one to the 160-bit value. -/
theorem ksuidValue_stepUp (k : Timestamp × U128) :
    ksuidValue (stepUp k).1 (stepUp k).2 = (ksuidValue k.1 k.2 + 1) % 2 ^ 160 := by
  have hts := k.1.isLt
  have hp := k.2.val_lt
  rw [ksuidValue, ksuidValue, stepUp_snd_val, stepUp_fst_toNat]
  split_ifs with hwrap <;> rw [← U128.val_inj, U128.val_max] at hwrap <;> omega

/-- The payload's borrow makes stepping down take one from the 160-bit value. -/
theorem ksuidValue_stepDown (k : Timestamp × U128) :
    ksuidValue (stepDown k).1 (stepDown k).2 = (ksuidValue k.1 k.2 + (2 ^ 160 - 1)) % 2 ^ 160 := by
  have hts := k.1.isLt
  have hp := k.2.val_lt
  rw [ksuidValue, ksuidValue, stepDown_snd_val, stepDown_fst_toNat]
  split_ifs with hwrap <;> rw [← U128.val_inj, U128.val_zero] at hwrap <;> omega

theorem ksuidNext_of_parse {u : List Byte} {k : Timestamp × U128} (h : ksuidParse u = .ok k) :
    ksuidNext u = ksuidGenerate (stepUp k).1 (stepUp k).2 := by
  rw [ksuidNext, h]

theorem ksuidPrev_of_parse {u : List Byte} {k : Timestamp × U128} (h : ksuidParse u = .ok k) :
    ksuidPrev u = ksuidGenerate (stepDown k).1 (stepDown k).2 := by
  rw [ksuidPrev, h]

/-- A valid KSUID string has a successor, of the value plus one. -/
theorem exists_ksuidNext_eq_ok {u : List Byte} (h : ValidKsuidString u) :
    ∃ n, ksuidNext u = .ok n ∧ ValidKsuidString n ∧ stringValue n = (stringValue u + 1) % 2 ^ 160 := by
  obtain ⟨ts, p, hform⟩ := exists_isTextForm_of_valid h
  obtain ⟨n, hn⟩ := exists_isTextForm (stepUp (ts, p)).1 (stepUp (ts, p)).2
  refine ⟨n, ?_, hn.valid, ?_⟩
  · rw [ksuidNext_of_parse (ksuidParse_eq_ok_iff.mpr hform), ksuidGenerate_eq_ok_iff.mpr hn]
  · rw [hn.value, hform.value, ksuidValue_stepUp]

/-- A valid KSUID string has a predecessor, of the value minus one. -/
theorem exists_ksuidPrev_eq_ok {u : List Byte} (h : ValidKsuidString u) :
    ∃ n, ksuidPrev u = .ok n ∧ ValidKsuidString n ∧
      stringValue n = (stringValue u + (2 ^ 160 - 1)) % 2 ^ 160 := by
  obtain ⟨ts, p, hform⟩ := exists_isTextForm_of_valid h
  obtain ⟨n, hn⟩ := exists_isTextForm (stepDown (ts, p)).1 (stepDown (ts, p)).2
  refine ⟨n, ?_, hn.valid, ?_⟩
  · rw [ksuidPrev_of_parse (ksuidParse_eq_ok_iff.mpr hform), ksuidGenerate_eq_ok_iff.mpr hn]
  · rw [hn.value, hform.value, ksuidValue_stepDown]

/-- Settles O29: by value, where the steps undo each other modulo `2^160` and keep the order but at the
ends. -/
theorem nextAndPrevUndoEachOther : Obligations.NextAndPrevUndoEachOther := by
  intro u hu
  obtain ⟨-, -, hlt⟩ := id hu
  obtain ⟨n, hnext, hn, hnvalue⟩ := exists_ksuidNext_eq_ok hu
  obtain ⟨p, hprev, hp, hpvalue⟩ := exists_ksuidPrev_eq_ok hu
  obtain ⟨u₁, hback, hu₁, hvalue₁⟩ := exists_ksuidPrev_eq_ok hn
  obtain ⟨u₂, hforth, hu₂, hvalue₂⟩ := exists_ksuidNext_eq_ok hp
  obtain rfl : u₁ = u := hu₁.eq_of_stringValue hu (by omega)
  obtain rfl : u₂ = u₁ := hu₂.eq_of_stringValue hu (by omega)
  refine ⟨n, p, hnext, hprev, hback, hforth, hn, hp, fun h => ?_, fun h => ?_, fun h => ?_⟩
  · rw [hu.lt_iff hn]
    omega
  · have hzero : ValidKsuidString (List.replicate 27 0x30#8) ∧
        stringValue (List.replicate 27 0x30#8) = 0 := by decide
    exact hn.eq_of_stringValue hzero.1 (by rw [hzero.2]; omega)
  · rw [hp.lt_iff hu]
    omega

/-! ## KPARSE, KNEXT and KPREV (42_ksuid.md R119, R123 to R125) -/

/-- The response of a command that reads a KSUID string: the length, then what the string gives. -/
def textResponse {α : Type} (f : List Byte → Except Status α) (k : α → Response) (len : Nat)
    (data : Lanes) : Response :=
  if len ≠ 27 then raisedResponse .invalidLength else responseOr (f (inputSequence len data)) k

theorem respondKParse_eq (len : Nat) (data : Lanes) :
    respondKParse len data = textResponse ksuidParse partsResponse len data := rfl

theorem respondKNext_eq (len : Nat) (data : Lanes) :
    respondKNext len data = textResponse ksuidNext sequenceResponse len data := rfl

theorem respondKPrev_eq (len : Nat) (data : Lanes) :
    respondKPrev len data = textResponse ksuidPrev sequenceResponse len data := rfl

theorem textResponse_of_length_ne {α : Type} {f : List Byte → Except Status α} {k : α → Response}
    {len : Nat} (data : Lanes) (h : len ≠ 27) :
    textResponse f k len data = raisedResponse .invalidLength := if_pos h

theorem textResponse_of_eq {α : Type} {f : List Byte → Except Status α} {k : α → Response} {data : Lanes}
    {x : Except Status α} (h : f (data.toList.take 27) = x) : textResponse f k 27 data = responseOr x k := by
  rw [textResponse, if_neg (by decide), inputSequence, h]

/-- What refuses the strings that the parser refuses, with its status. -/
def FailsAsParse {α : Type} (f : List Byte → Except Status α) : Prop :=
  ∀ (u : List Byte) (S : Status), ksuidParse u = .error S → f u = .error S

theorem failsAsParse_ksuidParse : FailsAsParse ksuidParse := fun _ _ => id

theorem failsAsParse_ksuidNext : FailsAsParse ksuidNext := fun u S h => by rw [ksuidNext, h]

theorem failsAsParse_ksuidPrev : FailsAsParse ksuidPrev := fun u S h => by rw [ksuidPrev, h]

theorem ksuidParse_of_not_allCharacters {u : List Byte} (hlen : u.length = 27) (h : ¬AllCharacters u) :
    ksuidParse u = .error .invalidCharacter := by
  rw [ksuidParse_of_length hlen, b62Decode_of_not_allCharacters 20 h]
  rfl

theorem ksuidParse_of_overflow {u : List Byte} (hlen : u.length = 27) (hchars : AllCharacters u)
    (hover : 2 ^ 160 ≤ stringValue u) : ksuidParse u = .error .decodingOverflow := by
  have hover' : 256 ^ 20 ≤ stringValue u := le_trans (by norm_num) hover
  rw [ksuidParse_of_length hlen, b62Decode_of_overflow hchars hover']
  rfl

/-- The errors of the commands that read a KSUID string, in the order of test: the length, the characters,
the value. -/
theorem textCommand_errors {α : Type} {f : List Byte → Except Status α} {k : α → Response}
    {command : Nat → Lanes → Instr}
    (hresp : ∀ len data, respondInstr (command len data) = textResponse f k len data) (hf : FailsAsParse f) :
    (∀ (len : Nat) (data : Lanes) (s : State), len ≠ 27 →
      ∃ t, exec (command len data) s = .next t ∧ Completed s t ∧ t.lrsp = raisedResponse .invalidLength) ∧
    (∀ (len : Nat) (data : Lanes) (s : State), len = 27 → ¬AllCharacters (data.toList.take 27) →
      ∃ t, exec (command len data) s = .next t ∧ Completed s t ∧
        t.lrsp = raisedResponse .invalidCharacter) ∧
    (∀ (len : Nat) (data : Lanes) (s : State), len = 27 → AllCharacters (data.toList.take 27) →
      2 ^ 160 ≤ stringValue (data.toList.take 27) →
      ∃ t, exec (command len data) s = .next t ∧ Completed s t ∧
        t.lrsp = raisedResponse .decodingOverflow) := by
  have hlen (data : Lanes) : (data.toList.take 27).length = 27 := by simp [BUFLEN]
  refine ⟨fun len data s h => ?_, ?_, ?_⟩
  · exact exists_exec_lrsp_eq _ s ((hresp len data).trans (textResponse_of_length_ne data h))
  · rintro _ data s rfl hchars
    have hparse := ksuidParse_of_not_allCharacters (hlen data) hchars
    exact exists_exec_lrsp_eq _ s ((hresp 27 data).trans (textResponse_of_eq (hf _ _ hparse)))
  · rintro _ data s rfl hchars hover
    have hparse := ksuidParse_of_overflow (hlen data) hchars hover
    exact exists_exec_lrsp_eq _ s ((hresp 27 data).trans (textResponse_of_eq (hf _ _ hparse)))

/-- Settles O23: past the length the response is the parser's answer, the KSUID of the text form. -/
theorem kParseReadsTheTextForm : Obligations.KParseReadsTheTextForm := by
  refine ⟨decode_opcodeValue .kParse, ?_, textCommand_errors respondKParse_eq failsAsParse_ksuidParse⟩
  rintro _ data s rfl hvalid
  obtain ⟨ts, p, hform⟩ := exists_isTextForm_of_valid hvalid
  exact ⟨_, exec_eq_next _ _, completed_complete _ _, ts, p,
    textResponse_of_eq (ksuidParse_eq_ok_iff.mpr hform), hform.value.symm⟩

/-- A command that steps a KSUID string returns the string it steps to, in the first 27 lanes. -/
theorem exists_exec_text {f : List Byte → Except Status (List Byte)} {command : Nat → Lanes → Instr}
    (hresp : ∀ len data, respondInstr (command len data) = textResponse f sequenceResponse len data)
    {data : Lanes} {value : Nat} (s : State)
    (h : ∃ n, f (data.toList.take 27) = .ok n ∧ ValidKsuidString n ∧ stringValue n = value) :
    ∃ t, exec (command 27 data) s = .next t ∧ Completed s t ∧
      ∃ v : Lanes, t.lrsp = { Response.zero with rlen := 27#6, rdata := v } ∧
        AllCharacters (v.toList.take 27) ∧ stringValue (v.toList.take 27) = value ∧
        ∀ (i : Nat) (h : i < BUFLEN), 27 ≤ i → v[i] = 0#8 := by
  obtain ⟨n, hn, ⟨hlen, hchars, -⟩, hvalue⟩ := h
  simpa only [and_assoc] using exists_exec_sequence
    (P := fun l => AllCharacters l ∧ stringValue l = value) (command 27 data) s
    ((hresp 27 data).trans (textResponse_of_eq hn)) hlen (by decide) ⟨hchars, hvalue⟩

/-- Settles O24: past the length the response is the successor's text form. -/
theorem kNextWritesTheSuccessor : Obligations.KNextWritesTheSuccessor := by
  refine ⟨decode_opcodeValue .kNext, ?_, textCommand_errors respondKNext_eq failsAsParse_ksuidNext⟩
  rintro _ data s rfl hvalid
  exact exists_exec_text (command := .kNext) respondKNext_eq s (exists_ksuidNext_eq_ok hvalid)

/-- Settles O25: past the length the response is the predecessor's text form. -/
theorem kPrevWritesThePredecessor : Obligations.KPrevWritesThePredecessor := by
  refine ⟨decode_opcodeValue .kPrev, ?_, textCommand_errors respondKPrev_eq failsAsParse_ksuidPrev⟩
  rintro _ data s rfl hvalid
  exact exists_exec_text (command := .kPrev) respondKPrev_eq s (exists_ksuidPrev_eq_ok hvalid)

end Sys2Proof.Machine
end

section
/-! SUPPORT. The proof of the statement of 60_exceptions.md on which status each command ends with (R136,
R138). -/

namespace Sys2Proof.Machine

/-! ## The status of an answer -/

/-- The status with which a command ends that passes on an answer. -/
def statusOf {α : Type} : Except Status α → Status
  | .ok _ => .ok
  | .error S => S

theorem responseOr_status {α : Type} (x : Except Status α) {k : α → Response}
    (hk : ∀ v, (k v).status = .ok) : (responseOr x k).status = statusOf x := by
  cases x with
  | ok v => exact hk v
  | error S => rfl

theorem statusOf_b62Encode (s : List Byte) (W : Nat) :
    statusOf (b62Encode s W) = if 62 ^ W ≤ be s then .encodingOverflow else .ok := by
  unfold b62Encode
  split_ifs <;> rfl

theorem statusOf_b62Decode (u : List Byte) (N : Nat) :
    statusOf (b62Decode u N) =
      if AllCharacters u then if 256 ^ N ≤ stringValue u then .decodingOverflow else .ok
      else .invalidCharacter := by
  by_cases h : AllCharacters u
  · rw [b62Decode_of_allCharacters N h, if_pos h]
    split_ifs <;> rfl
  · rw [b62Decode_of_not_allCharacters N h, if_neg h]
    rfl

theorem statusOf_ksuidGenerate (ts : Timestamp) (p : U128) : statusOf (ksuidGenerate ts p) = .ok := by
  obtain ⟨u, hgen, -⟩ := exists_ksuidGenerate_eq_ok ts p
  rw [hgen, statusOf]

theorem statusOf_ksuidParse {u : List Byte} (h : u.length = 27) :
    statusOf (ksuidParse u) = statusOf (b62Decode u 20) := by
  rw [ksuidParse_of_length h]
  cases b62Decode u 20 <;> rfl

/-- What follows a successful parse cannot fail. -/
theorem statusOf_ksuidNext (u : List Byte) : statusOf (ksuidNext u) = statusOf (ksuidParse u) := by
  unfold ksuidNext
  cases ksuidParse u with
  | error S => rfl
  | ok k => exact statusOf_ksuidGenerate _ _

theorem statusOf_ksuidPrev (u : List Byte) : statusOf (ksuidPrev u) = statusOf (ksuidParse u) := by
  unfold ksuidPrev
  cases ksuidParse u with
  | error S => rfl
  | ok k => exact statusOf_ksuidGenerate _ _

/-! ## The status due, by the kind of operation (60_exceptions.md R136) -/

/-- The first status due of a command of a known operation, in the order of priority
(60_exceptions.md R138). -/
def dueStatusOf (o : Opcode) (c : Command) : Status :=
  if lengthFault o c then .invalidLength
  else if characterFault o c then .invalidCharacter
  else if encodingFault o c then .encodingOverflow
  else if decodingFault o c then .decodingOverflow
  else .ok

theorem dueStatus_of_opcodeOf_eq_some {c : Command} {o : Opcode} (h : opcodeOf c.op = some o) :
    dueStatus c = dueStatusOf o c := by
  rw [dueStatus, h]
  rfl

theorem dueStatus_of_opcodeOf_eq_none {c : Command} (h : opcodeOf c.op = none) :
    dueStatus c = .illegalCommand := by
  rw [dueStatus, h]

/-- Of an operation that reads no characters, at most the length and the encoding are in question. -/
theorem dueStatusOf_of_not_readsCharacters {o : Opcode} (c : Command) (h : readsCharacters o = false) :
    dueStatusOf o c =
      if lengthFault o c then .invalidLength else if encodingFault o c then .encodingOverflow else .ok := by
  simp [dueStatusOf, characterFault, decodingFault, h]

/-- Some lane is no character exactly when not every lane is. -/
theorem any_isNone_iff (u : List Byte) : (u.any fun x => (val62 x).isNone) = true ↔ ¬AllCharacters u := by
  simp [AllCharacters, Option.isSome_iff_ne_none]

/-- Past its length, an operation that reads characters ends as its decoding does. -/
theorem dueStatusOf_of_readsCharacters {o : Opcode} (c : Command) (h : readsCharacters o = true) :
    dueStatusOf o c =
      if lengthFault o c then .invalidLength
      else statusOf (b62Decode (inputOf c) (decodedBytes o c)) := by
  have henc : encodingFault o c = false := by
    have ho : o ≠ .b62Enc := by rintro rfl; cases h
    simp [encodingFault, ho]
  have hchar : characterFault o c = true ↔ ¬AllCharacters (inputOf c) := by
    rw [characterFault, h, Bool.true_and, any_isNone_iff]
  have hdec : decodingFault o c = true ↔ 256 ^ decodedBytes o c ≤ stringValue (inputOf c) := by
    rw [decodingFault, h, Bool.true_and, decide_eq_true_iff]
  rw [statusOf_b62Decode, dueStatusOf, henc]
  by_cases hchars : AllCharacters (inputOf c)
  · rw [if_neg (hchar.not.mpr (not_not.mpr hchars)), if_pos hchars, if_neg Bool.false_ne_true]
    exact if_congr Iff.rfl rfl (if_congr hdec rfl rfl)
  · rw [if_pos (hchar.mpr hchars), if_neg hchars]

/-! ## The status each command ends with -/

/-- A command that reads a KSUID string, past its length, ends as the parser does. -/
theorem textResponse_status {α : Type} {f : List Byte → Except Status α} {k : α → Response}
    (hk : ∀ v, (k v).status = .ok) (hf : ∀ u, statusOf (f u) = statusOf (ksuidParse u)) (c : Command) :
    (textResponse f k c.len.toNat c.data).status =
      if c.len.toNat != 27 then .invalidLength else statusOf (b62Decode (inputOf c) 20) := by
  by_cases hlen : c.len.toNat = 27
  · have hinput : (inputSequence 27 c.data).length = 27 := inputSequence_length _ (by decide)
    simp [textResponse, inputOf, hlen, responseOr_status _ hk, hf, statusOf_ksuidParse hinput]
  · simp [textResponse, hlen]

theorem respondFromBytes_status (len : Nat) (data : Lanes) :
    (respondFromBytes len data).status = if len ≠ 16 then .invalidLength else .ok := by
  unfold respondFromBytes
  split_ifs <;> rfl

theorem respondKSplit_status (len : Nat) (data : Lanes) :
    (respondKSplit len data).status = if len ≠ 20 then .invalidLength else .ok := by
  unfold respondKSplit
  split_ifs <;> rfl

theorem respondB62Enc_status (len wout : Nat) (data : Lanes) :
    (respondB62Enc len wout data).status =
      if BUFLEN < len ∨ BUFLEN < wout then .invalidLength
      else if 62 ^ wout ≤ be (inputSequence len data) then .encodingOverflow else .ok := by
  rw [respondB62Enc, ← statusOf_b62Encode, ← responseOr_status (k := sequenceResponse) _ fun _ => rfl]
  split_ifs <;> rfl

theorem respondB62Dec_status (len wout : Nat) (data : Lanes) :
    (respondB62Dec len wout data).status =
      if BUFLEN < len ∨ BUFLEN < wout then .invalidLength
      else statusOf (b62Decode (inputSequence len data) wout) := by
  rw [respondB62Dec, ← responseOr_status (k := sequenceResponse) _ fun _ => rfl]
  split_ifs <;> rfl

theorem respondInstr_status (o : Opcode) (c : Command) :
    (respondInstr (instrOf o c)).status = dueStatusOf o c := by
  cases o with
  | toBytes | add | sub | inc | dec | cmp | kCat =>
    rw [dueStatusOf_of_not_readsCharacters c rfl]
    rfl
  | kGen =>
    rw [dueStatusOf_of_not_readsCharacters c rfl]
    exact (responseOr_status _ fun _ => rfl).trans (statusOf_ksuidGenerate _ _)
  | fromBytes =>
    rw [dueStatusOf_of_not_readsCharacters c rfl]
    exact (respondFromBytes_status _ _).trans (if_congr (by simp [lengthFault]) rfl rfl)
  | kSplit =>
    rw [dueStatusOf_of_not_readsCharacters c rfl]
    exact (respondKSplit_status _ _).trans (if_congr (by simp [lengthFault]) rfl rfl)
  | b62Enc =>
    have henc : encodingFault .b62Enc c = true ↔ 62 ^ c.wout.toNat ≤ be (inputOf c) := decide_eq_true_iff
    rw [dueStatusOf_of_not_readsCharacters c rfl]
    exact (respondB62Enc_status _ _ _).trans (if_congr (by simp [lengthFault]) rfl
      (if_congr henc.symm rfl rfl))
  | b62Dec =>
    rw [dueStatusOf_of_readsCharacters c rfl]
    exact (respondB62Dec_status _ _ _).trans (if_congr (by simp [lengthFault]) rfl rfl)
  | kParse =>
    rw [dueStatusOf_of_readsCharacters c rfl]
    exact textResponse_status (fun _ => rfl) (fun _ => rfl) c
  | kNext =>
    rw [dueStatusOf_of_readsCharacters c rfl]
    exact textResponse_status (fun _ => rfl) statusOf_ksuidNext c
  | kPrev =>
    rw [dueStatusOf_of_readsCharacters c rfl]
    exact textResponse_status (fun _ => rfl) statusOf_ksuidPrev c

/-- Settles O40: a known operation ends with the first status due of it, and any other `op` is illegal. -/
theorem statusIsTheFirstDue : Obligations.StatusIsTheFirstDue := by
  intro c
  cases ho : opcodeOf c.op with
  | none => rw [respond_of_opcodeOf_eq_none ho, dueStatus_of_opcodeOf_eq_none ho, raisedResponse_status]
  | some o =>
    rw [respond_of_opcodeOf_eq_some ho, respondInstr_trimmed, dueStatus_of_opcodeOf_eq_some ho,
      respondInstr_status]

end Sys2Proof.Machine
end
